-- ==== Sys2Proof/Word.lean ====
section
/-!
DEFINITION. Sys2Proof/Word.lean: the machine's bit-vector types (00_scope.md R13).

"every register, pc, address and CSR value is a 32-bit unsigned bit vector" (R13); memory and the UART are made of
bytes (20_memory.md R100, R113); the timer's counters have 64 bits (60_exceptions.md R430). They are abbreviations of
`BitVec`, so that `+`, `-`, `*` wrap modulo 2^width as R13 says.
-/

namespace Sys2Proof

/-- A register, an address, a CSR value, an instruction word (R13). -/
abbrev Word := BitVec 32

/-- One byte of memory or one UART register (R100, R113). -/
abbrev Byte := BitVec 8

/-- `mtime` and `mtimecmp` (R430). -/
abbrev DWord := BitVec 64

/-- The number of a general register, 0 to 31 (R30). -/
abbrev RegIdx := Fin 32

/-- A CSR address: "a 12-bit index" (R40). -/
abbrev CsrAddr := BitVec 12

/-- A sparse map from natural numbers to `w`-bit values, as a list of (key, value) pairs. Its canonical form and its
operations are in Sys2Proof/Machine/Memory.lean; with `w = 8` it is a list of `Host.Cell`. -/
abbrev Sparse (w : Nat) := List (Nat × BitVec w)

end Sys2Proof
end

