-- ==== Sys2Proof/Syntax.lean ====
section
/-!
DEFINITION. Sys2Proof/Syntax.lean: the instructions, one constructor for each of the 69 rows of spec/opcode_table.json.

A constructor holds "every field the instruction uses" (30_encoding.md R202) and no other: the fields the decoder
ignores (R196: fm, pred, succ, rs1 and rd of the fences; rs1 and rd of ecall, ebreak, sret, mret, wfi; aq and rl of the
atomics; rs2 of lr.w) "are not part of an instruction's field set". Immediates keep the width of their encoding
(R179-R184); they are extended when the instruction runs (Sys2Proof/Machine/Operands.lean).
-/

namespace Sys2Proof

/-- An instruction with its operands. Branch and jump offsets (`off`) are the 13-bit and 21-bit values of R181 and
R183, whose bit 0 is 0 (checked by `Instr.wellFormed`). -/
inductive Instr where
  -- 40_integer.md R224-R244
  | lui (rd : RegIdx) (imm : BitVec 20)
  | auipc (rd : RegIdx) (imm : BitVec 20)
  | addi (rd rs1 : RegIdx) (imm : BitVec 12)
  | slti (rd rs1 : RegIdx) (imm : BitVec 12)
  | sltiu (rd rs1 : RegIdx) (imm : BitVec 12)
  | xori (rd rs1 : RegIdx) (imm : BitVec 12)
  | ori (rd rs1 : RegIdx) (imm : BitVec 12)
  | andi (rd rs1 : RegIdx) (imm : BitVec 12)
  | slli (rd rs1 : RegIdx) (shamt : BitVec 5)
  | srli (rd rs1 : RegIdx) (shamt : BitVec 5)
  | srai (rd rs1 : RegIdx) (shamt : BitVec 5)
  | add (rd rs1 rs2 : RegIdx)
  | sub (rd rs1 rs2 : RegIdx)
  | sll (rd rs1 rs2 : RegIdx)
  | slt (rd rs1 rs2 : RegIdx)
  | sltu (rd rs1 rs2 : RegIdx)
  | xor (rd rs1 rs2 : RegIdx)
  | srl (rd rs1 rs2 : RegIdx)
  | sra (rd rs1 rs2 : RegIdx)
  | or (rd rs1 rs2 : RegIdx)
  | and (rd rs1 rs2 : RegIdx)
  -- 41_control.md R274-R282
  | jal (rd : RegIdx) (off : BitVec 21)
  | jalr (rd rs1 : RegIdx) (imm : BitVec 12)
  | beq (rs1 rs2 : RegIdx) (off : BitVec 13)
  | bne (rs1 rs2 : RegIdx) (off : BitVec 13)
  | blt (rs1 rs2 : RegIdx) (off : BitVec 13)
  | bge (rs1 rs2 : RegIdx) (off : BitVec 13)
  | bltu (rs1 rs2 : RegIdx) (off : BitVec 13)
  | bgeu (rs1 rs2 : RegIdx) (off : BitVec 13)
  -- 42_loadstore.md R294-R303
  | lb (rd rs1 : RegIdx) (imm : BitVec 12)
  | lh (rd rs1 : RegIdx) (imm : BitVec 12)
  | lw (rd rs1 : RegIdx) (imm : BitVec 12)
  | lbu (rd rs1 : RegIdx) (imm : BitVec 12)
  | lhu (rd rs1 : RegIdx) (imm : BitVec 12)
  | sb (rs1 rs2 : RegIdx) (imm : BitVec 12)
  | sh (rs1 rs2 : RegIdx) (imm : BitVec 12)
  | sw (rs1 rs2 : RegIdx) (imm : BitVec 12)
  | fence
  | fenceI
  -- 43_muldiv.md R312-R319
  | mul (rd rs1 rs2 : RegIdx)
  | mulh (rd rs1 rs2 : RegIdx)
  | mulhsu (rd rs1 rs2 : RegIdx)
  | mulhu (rd rs1 rs2 : RegIdx)
  | div (rd rs1 rs2 : RegIdx)
  | divu (rd rs1 rs2 : RegIdx)
  | rem (rd rs1 rs2 : RegIdx)
  | remu (rd rs1 rs2 : RegIdx)
  -- 44_atomic.md R331-R342
  | lrW (rd rs1 : RegIdx)
  | scW (rd rs1 rs2 : RegIdx)
  | amoswapW (rd rs1 rs2 : RegIdx)
  | amoaddW (rd rs1 rs2 : RegIdx)
  | amoxorW (rd rs1 rs2 : RegIdx)
  | amoandW (rd rs1 rs2 : RegIdx)
  | amoorW (rd rs1 rs2 : RegIdx)
  | amominW (rd rs1 rs2 : RegIdx)
  | amomaxW (rd rs1 rs2 : RegIdx)
  | amominuW (rd rs1 rs2 : RegIdx)
  | amomaxuW (rd rs1 rs2 : RegIdx)
  -- 45_system.md R351-R370
  | csrrw (rd : RegIdx) (csr : CsrAddr) (rs1 : RegIdx)
  | csrrs (rd : RegIdx) (csr : CsrAddr) (rs1 : RegIdx)
  | csrrc (rd : RegIdx) (csr : CsrAddr) (rs1 : RegIdx)
  | csrrwi (rd : RegIdx) (csr : CsrAddr) (zimm : BitVec 5)
  | csrrsi (rd : RegIdx) (csr : CsrAddr) (zimm : BitVec 5)
  | csrrci (rd : RegIdx) (csr : CsrAddr) (zimm : BitVec 5)
  | ecall
  | ebreak
  | mret
  | sret
  | wfi
  deriving DecidableEq, Repr

end Sys2Proof
end

