-- ==== Sys2Proof/WellFormed.lean ====
section
/-!
DEFINITION. Sys2Proof/WellFormed.lean: which terms of `Instr` some instruction word encodes.

Register numbers, shift amounts, CSR addresses and the other immediates have exactly the width of their field, so every
value of them is encodable. Two shapes have a value no word encodes: a branch offset and a `jal` offset with bit 0 set
(30_encoding.md R181, R183: "bit0=0").
-/

namespace Sys2Proof

/-- R181: bit 0 of a branch offset is 0. -/
def evenBranchOffset (off : BitVec 13) : Bool := off.getLsbD 0 == false

/-- R183: bit 0 of a jump offset is 0. -/
def evenJumpOffset (off : BitVec 21) : Bool := off.getLsbD 0 == false

/-- Some word encodes the instruction. -/
def Instr.wellFormed : Instr → Bool
  | .lui _ _ => true
  | .auipc _ _ => true
  | .addi _ _ _ => true
  | .slti _ _ _ => true
  | .sltiu _ _ _ => true
  | .xori _ _ _ => true
  | .ori _ _ _ => true
  | .andi _ _ _ => true
  | .slli _ _ _ => true
  | .srli _ _ _ => true
  | .srai _ _ _ => true
  | .add _ _ _ => true
  | .sub _ _ _ => true
  | .sll _ _ _ => true
  | .slt _ _ _ => true
  | .sltu _ _ _ => true
  | .xor _ _ _ => true
  | .srl _ _ _ => true
  | .sra _ _ _ => true
  | .or _ _ _ => true
  | .and _ _ _ => true
  | .jal _ off => evenJumpOffset off
  | .jalr _ _ _ => true
  | .beq _ _ off => evenBranchOffset off
  | .bne _ _ off => evenBranchOffset off
  | .blt _ _ off => evenBranchOffset off
  | .bge _ _ off => evenBranchOffset off
  | .bltu _ _ off => evenBranchOffset off
  | .bgeu _ _ off => evenBranchOffset off
  | .lb _ _ _ => true
  | .lh _ _ _ => true
  | .lw _ _ _ => true
  | .lbu _ _ _ => true
  | .lhu _ _ _ => true
  | .sb _ _ _ => true
  | .sh _ _ _ => true
  | .sw _ _ _ => true
  | .fence => true
  | .fenceI => true
  | .mul _ _ _ => true
  | .mulh _ _ _ => true
  | .mulhsu _ _ _ => true
  | .mulhu _ _ _ => true
  | .div _ _ _ => true
  | .divu _ _ _ => true
  | .rem _ _ _ => true
  | .remu _ _ _ => true
  | .lrW _ _ => true
  | .scW _ _ _ => true
  | .amoswapW _ _ _ => true
  | .amoaddW _ _ _ => true
  | .amoxorW _ _ _ => true
  | .amoandW _ _ _ => true
  | .amoorW _ _ _ => true
  | .amominW _ _ _ => true
  | .amomaxW _ _ _ => true
  | .amominuW _ _ _ => true
  | .amomaxuW _ _ _ => true
  | .csrrw _ _ _ => true
  | .csrrs _ _ _ => true
  | .csrrc _ _ _ => true
  | .csrrwi _ _ _ => true
  | .csrrsi _ _ _ => true
  | .csrrci _ _ _ => true
  | .ecall => true
  | .ebreak => true
  | .mret => true
  | .sret => true
  | .wfi => true

end Sys2Proof
end

