-- ==== Sys2Proof/Decode.lean ====
section
/-!
DEFINITION. Sys2Proof/Decode.lean: from instruction words to instructions (30_encoding.md R170-R199) and back.

`decodeWord` is total and rejects by name: the zero word and every word with no mapping (R195). The decode map follows
rules R185 to R194 opcode by opcode. The encoder `encode` writes the words of an instruction from the same formats
(R172-R178), with 0 in the fields the decoder ignores (R196; log 10).
-/

namespace Sys2Proof

/-! ## Fields of a word (R171) -/

/-- `w[6:0]`. -/
def opcode (w : Word) : BitVec 7 := w.extractLsb' 0 7

/-- `w[14:12]`. -/
def funct3 (w : Word) : BitVec 3 := w.extractLsb' 12 3

/-- `w[31:25]`. -/
def funct7 (w : Word) : BitVec 7 := w.extractLsb' 25 7

/-- `w[31:27]`. -/
def funct5 (w : Word) : BitVec 5 := w.extractLsb' 27 5

/-- `w[31:20]`, which selects among ecall, ebreak, sret, mret and wfi (R192). -/
def funct12 (w : Word) : BitVec 12 := w.extractLsb' 20 12

/-- The register number in the five bits from bit `lo` up. -/
def regField (w : Word) (lo : Nat) : RegIdx := (w.extractLsb' lo 5).toFin

/-- `w[11:7]`. -/
def rdField (w : Word) : RegIdx := regField w 7

/-- `w[19:15]`. -/
def rs1Field (w : Word) : RegIdx := regField w 15

/-- `w[24:20]`. -/
def rs2Field (w : Word) : RegIdx := regField w 20

/-! ## Immediates (R179-R184), before extension -/

/-- R179: `w[31:20]`. -/
def immI (w : Word) : BitVec 12 := w.extractLsb' 20 12

/-- R180: `{w[31:25], w[11:7]}`. -/
def immS (w : Word) : BitVec 12 := w.extractLsb' 25 7 ++ w.extractLsb' 7 5

/-- R181: `{w[31], w[7], w[30:25], w[11:8], 0}`. -/
def immB (w : Word) : BitVec 13 :=
  w.extractLsb' 31 1 ++ w.extractLsb' 7 1 ++ w.extractLsb' 25 6 ++ w.extractLsb' 8 4 ++ 0#1

/-- R182: `w[31:12]`, the upper 20 bits of the immediate. -/
def immU (w : Word) : BitVec 20 := w.extractLsb' 12 20

/-- R183: `{w[31], w[19:12], w[20], w[30:21], 0}`. -/
def immJ (w : Word) : BitVec 21 :=
  w.extractLsb' 31 1 ++ w.extractLsb' 12 8 ++ w.extractLsb' 20 1 ++ w.extractLsb' 21 10 ++ 0#1

/-- R184: the shift amount `w[24:20]`. -/
def shamtField (w : Word) : BitVec 5 := w.extractLsb' 20 5

/-- R184: the CSR address `w[31:20]`. -/
def csrField (w : Word) : CsrAddr := w.extractLsb' 20 12

/-- R184: the CSR immediate `w[19:15]`. -/
def zimmField (w : Word) : BitVec 5 := w.extractLsb' 15 5

/-! ## The decode map (R185-R194) -/

/-- R187: OP (0x33), by funct7 and funct3. -/
def decodeOp (w : Word) : Option Instr :=
  match funct7 w with
  | 0b0000000#7 =>
    match funct3 w with
    | 0#3 => some (.add (rdField w) (rs1Field w) (rs2Field w))
    | 1#3 => some (.sll (rdField w) (rs1Field w) (rs2Field w))
    | 2#3 => some (.slt (rdField w) (rs1Field w) (rs2Field w))
    | 3#3 => some (.sltu (rdField w) (rs1Field w) (rs2Field w))
    | 4#3 => some (.xor (rdField w) (rs1Field w) (rs2Field w))
    | 5#3 => some (.srl (rdField w) (rs1Field w) (rs2Field w))
    | 6#3 => some (.or (rdField w) (rs1Field w) (rs2Field w))
    | _ => some (.and (rdField w) (rs1Field w) (rs2Field w))
  | 0b0100000#7 =>
    match funct3 w with
    | 0#3 => some (.sub (rdField w) (rs1Field w) (rs2Field w))
    | 5#3 => some (.sra (rdField w) (rs1Field w) (rs2Field w))
    | _ => none
  | 0b0000001#7 =>
    match funct3 w with
    | 0#3 => some (.mul (rdField w) (rs1Field w) (rs2Field w))
    | 1#3 => some (.mulh (rdField w) (rs1Field w) (rs2Field w))
    | 2#3 => some (.mulhsu (rdField w) (rs1Field w) (rs2Field w))
    | 3#3 => some (.mulhu (rdField w) (rs1Field w) (rs2Field w))
    | 4#3 => some (.div (rdField w) (rs1Field w) (rs2Field w))
    | 5#3 => some (.divu (rdField w) (rs1Field w) (rs2Field w))
    | 6#3 => some (.rem (rdField w) (rs1Field w) (rs2Field w))
    | _ => some (.remu (rdField w) (rs1Field w) (rs2Field w))
  | _ => none

/-- R188: OP-IMM (0x13), by funct3, and for the shifts by `w[31:25]`. -/
def decodeOpImm (w : Word) : Option Instr :=
  match funct3 w with
  | 0#3 => some (.addi (rdField w) (rs1Field w) (immI w))
  | 1#3 =>
    match funct7 w with
    | 0b0000000#7 => some (.slli (rdField w) (rs1Field w) (shamtField w))
    | _ => none
  | 2#3 => some (.slti (rdField w) (rs1Field w) (immI w))
  | 3#3 => some (.sltiu (rdField w) (rs1Field w) (immI w))
  | 4#3 => some (.xori (rdField w) (rs1Field w) (immI w))
  | 5#3 =>
    match funct7 w with
    | 0b0000000#7 => some (.srli (rdField w) (rs1Field w) (shamtField w))
    | 0b0100000#7 => some (.srai (rdField w) (rs1Field w) (shamtField w))
    | _ => none
  | 6#3 => some (.ori (rdField w) (rs1Field w) (immI w))
  | _ => some (.andi (rdField w) (rs1Field w) (immI w))

/-- R189: LOAD (0x03) by funct3. -/
def decodeLoad (w : Word) : Option Instr :=
  match funct3 w with
  | 0#3 => some (.lb (rdField w) (rs1Field w) (immI w))
  | 1#3 => some (.lh (rdField w) (rs1Field w) (immI w))
  | 2#3 => some (.lw (rdField w) (rs1Field w) (immI w))
  | 4#3 => some (.lbu (rdField w) (rs1Field w) (immI w))
  | 5#3 => some (.lhu (rdField w) (rs1Field w) (immI w))
  | _ => none

/-- R189: STORE (0x23) by funct3. -/
def decodeStore (w : Word) : Option Instr :=
  match funct3 w with
  | 0#3 => some (.sb (rs1Field w) (rs2Field w) (immS w))
  | 1#3 => some (.sh (rs1Field w) (rs2Field w) (immS w))
  | 2#3 => some (.sw (rs1Field w) (rs2Field w) (immS w))
  | _ => none

/-- R190: BRANCH (0x63) by funct3. -/
def decodeBranch (w : Word) : Option Instr :=
  match funct3 w with
  | 0#3 => some (.beq (rs1Field w) (rs2Field w) (immB w))
  | 1#3 => some (.bne (rs1Field w) (rs2Field w) (immB w))
  | 4#3 => some (.blt (rs1Field w) (rs2Field w) (immB w))
  | 5#3 => some (.bge (rs1Field w) (rs2Field w) (immB w))
  | 6#3 => some (.bltu (rs1Field w) (rs2Field w) (immB w))
  | 7#3 => some (.bgeu (rs1Field w) (rs2Field w) (immB w))
  | _ => none

/-- R191: MISC-MEM (0x0F) by funct3; the other fields are not checked. -/
def decodeMiscMem (w : Word) : Option Instr :=
  match funct3 w with
  | 0#3 => some .fence
  | 1#3 => some .fenceI
  | _ => none

/-- R192: SYSTEM (0x73) by funct3, and for funct3 = 0 by `w[31:20]`; rs1 and rd are then not checked. -/
def decodeSystem (w : Word) : Option Instr :=
  match funct3 w with
  | 0#3 =>
    match funct12 w with
    | 0x000#12 => some .ecall
    | 0x001#12 => some .ebreak
    | 0x102#12 => some .sret
    | 0x302#12 => some .mret
    | 0x105#12 => some .wfi
    | _ => none
  | 1#3 => some (.csrrw (rdField w) (csrField w) (rs1Field w))
  | 2#3 => some (.csrrs (rdField w) (csrField w) (rs1Field w))
  | 3#3 => some (.csrrc (rdField w) (csrField w) (rs1Field w))
  | 5#3 => some (.csrrwi (rdField w) (csrField w) (zimmField w))
  | 6#3 => some (.csrrsi (rdField w) (csrField w) (zimmField w))
  | 7#3 => some (.csrrci (rdField w) (csrField w) (zimmField w))
  | _ => none

/-- R193: AMO (0x2F) requires funct3 = 2 and is selected by funct5; aq, rl and the rs2 field of lr.w are not checked. -/
def decodeAmo (w : Word) : Option Instr :=
  match funct3 w with
  | 2#3 =>
    match funct5 w with
    | 0b00010#5 => some (.lrW (rdField w) (rs1Field w))
    | 0b00011#5 => some (.scW (rdField w) (rs1Field w) (rs2Field w))
    | 0b00001#5 => some (.amoswapW (rdField w) (rs1Field w) (rs2Field w))
    | 0b00000#5 => some (.amoaddW (rdField w) (rs1Field w) (rs2Field w))
    | 0b00100#5 => some (.amoxorW (rdField w) (rs1Field w) (rs2Field w))
    | 0b01100#5 => some (.amoandW (rdField w) (rs1Field w) (rs2Field w))
    | 0b01000#5 => some (.amoorW (rdField w) (rs1Field w) (rs2Field w))
    | 0b10000#5 => some (.amominW (rdField w) (rs1Field w) (rs2Field w))
    | 0b10100#5 => some (.amomaxW (rdField w) (rs1Field w) (rs2Field w))
    | 0b11000#5 => some (.amominuW (rdField w) (rs1Field w) (rs2Field w))
    | 0b11100#5 => some (.amomaxuW (rdField w) (rs1Field w) (rs2Field w))
    | _ => none
  | _ => none

/-- R194: JALR (0x67) requires funct3 = 0. -/
def decodeJalr (w : Word) : Option Instr :=
  match funct3 w with
  | 0#3 => some (.jalr (rdField w) (rs1Field w) (immI w))
  | _ => none

/-- R185: the twelve major opcodes. `none` is the spec's `Unknown` (R195). -/
def decodeMap (w : Word) : Option Instr :=
  match opcode w with
  | 0b0000011#7 => decodeLoad w
  | 0b0001111#7 => decodeMiscMem w
  | 0b0010011#7 => decodeOpImm w
  | 0b0010111#7 => some (.auipc (rdField w) (immU w))
  | 0b0100011#7 => decodeStore w
  | 0b0101111#7 => decodeAmo w
  | 0b0110011#7 => decodeOp w
  | 0b0110111#7 => some (.lui (rdField w) (immU w))
  | 0b1100011#7 => decodeBranch w
  | 0b1100111#7 => decodeJalr w
  | 0b1101111#7 => some (.jal (rdField w) (immJ w))
  | 0b1110011#7 => decodeSystem w
  | _ => none

/-- Why a word or a byte string is no instruction. -/
inductive DecodeRefusal where
  /-- The word is 0x00000000 (R195). -/
  | zeroWord
  /-- The word has no mapping in R185-R194 (R195). -/
  | noMapping (w : Word)
  /-- Fewer than four bytes: every instruction has four (R170). -/
  | truncated
  deriving DecidableEq, Repr

/-- R195 `decodeOrHalt`, as a total function that says why it refuses. -/
def decodeWord (w : Word) : Except DecodeRefusal Instr :=
  if w = 0x00000000#32 then .error .zeroWord
  else match decodeMap w with
    | some i => .ok i
    | none => .error (.noMapping w)

/-- R170, R105: four bytes as a little-endian word, `b0` least significant. -/
def wordOfBytes (b0 b1 b2 b3 : Byte) : Word := b3 ++ b2 ++ b1 ++ b0

/-- The bytes of a word, least significant first (R106). -/
def bytesOfWord (w : Word) : List Byte :=
  [w.extractLsb' 0 8, w.extractLsb' 8 8, w.extractLsb' 16 8, w.extractLsb' 24 8]

/-- Decode the first instruction of a byte string and return the rest of the string. -/
def decodeBytes : List Byte → Except DecodeRefusal (Instr × List Byte)
  | b0 :: b1 :: b2 :: b3 :: rest =>
    match decodeWord (wordOfBytes b0 b1 b2 b3) with
    | .ok i => .ok (i, rest)
    | .error e => .error e
  | _ => .error .truncated

/-- The instruction the decoder reads from the `nbits` low bits of `w`, numbered as spec/opcode_table.json numbers
them: the word's four bytes in the order they lie in memory, given to `decodeBytes`. -/
def decodeTableWord (nbits w : Nat) : Option Instr :=
  match decodeBytes (bytesOfWord (BitVec.ofNat 32 (w % 2 ^ nbits))) with
  | .ok (i, _) => some i
  | .error _ => none

/-! ## The encoder (R172-R178) -/

/-- A register number as a five-bit field. -/
def regBits (r : RegIdx) : BitVec 5 := BitVec.ofFin r

/-- R172, R-type. -/
def encodeR (f7 : BitVec 7) (f3 : BitVec 3) (op : BitVec 7) (rd rs1 rs2 : RegIdx) : Word :=
  f7 ++ regBits rs2 ++ regBits rs1 ++ f3 ++ regBits rd ++ op

/-- R172 with bits 31:25 split into funct5, aq and rl; aq = rl = 0 (R196). -/
def encodeAmo (f5 : BitVec 5) (rd rs1 rs2 : RegIdx) : Word :=
  f5 ++ 0#2 ++ regBits rs2 ++ regBits rs1 ++ 2#3 ++ regBits rd ++ 0b0101111#7

/-- R173, I-type; also the CSR forms, whose rs1 field may hold `zimm` (R171). -/
def encodeI (f3 : BitVec 3) (op : BitVec 7) (rd : RegIdx) (rs1 : BitVec 5) (imm : BitVec 12) : Word :=
  imm ++ rs1 ++ f3 ++ regBits rd ++ op

/-- R174, S-type. -/
def encodeS (f3 : BitVec 3) (rs1 rs2 : RegIdx) (imm : BitVec 12) : Word :=
  imm.extractLsb' 5 7 ++ regBits rs2 ++ regBits rs1 ++ f3 ++ imm.extractLsb' 0 5 ++ 0b0100011#7

/-- R175, B-type. -/
def encodeB (f3 : BitVec 3) (rs1 rs2 : RegIdx) (off : BitVec 13) : Word :=
  off.extractLsb' 12 1 ++ off.extractLsb' 5 6 ++ regBits rs2 ++ regBits rs1 ++ f3 ++ off.extractLsb' 1 4
    ++ off.extractLsb' 11 1 ++ 0b1100011#7

/-- R176, U-type. -/
def encodeU (op : BitVec 7) (rd : RegIdx) (imm : BitVec 20) : Word :=
  imm ++ regBits rd ++ op

/-- R177, J-type. -/
def encodeJ (rd : RegIdx) (off : BitVec 21) : Word :=
  off.extractLsb' 20 1 ++ off.extractLsb' 1 10 ++ off.extractLsb' 11 1 ++ off.extractLsb' 12 8 ++ regBits rd
    ++ 0b1101111#7

/-- R178 with fm, pred, succ, rs1 and rd 0 (R196). -/
def encodeFence (f3 : BitVec 3) : Word := 0#17 ++ f3 ++ 0#5 ++ 0b0001111#7

/-- R192, funct3 = 0, with rs1 and rd 0 (R196). -/
def encodeSystem (f12 : BitVec 12) : Word := f12 ++ 0#13 ++ 0b1110011#7

/-- The word of an instruction. For a well-formed instruction `decodeWord (encode i)` gives `i` back (R202). -/
def encode : Instr → Word
  | .lui rd imm => encodeU 0b0110111#7 rd imm
  | .auipc rd imm => encodeU 0b0010111#7 rd imm
  | .addi rd rs1 imm => encodeI 0#3 0b0010011#7 rd (regBits rs1) imm
  | .slti rd rs1 imm => encodeI 2#3 0b0010011#7 rd (regBits rs1) imm
  | .sltiu rd rs1 imm => encodeI 3#3 0b0010011#7 rd (regBits rs1) imm
  | .xori rd rs1 imm => encodeI 4#3 0b0010011#7 rd (regBits rs1) imm
  | .ori rd rs1 imm => encodeI 6#3 0b0010011#7 rd (regBits rs1) imm
  | .andi rd rs1 imm => encodeI 7#3 0b0010011#7 rd (regBits rs1) imm
  | .slli rd rs1 shamt => encodeI 1#3 0b0010011#7 rd (regBits rs1) (0b0000000#7 ++ shamt)
  | .srli rd rs1 shamt => encodeI 5#3 0b0010011#7 rd (regBits rs1) (0b0000000#7 ++ shamt)
  | .srai rd rs1 shamt => encodeI 5#3 0b0010011#7 rd (regBits rs1) (0b0100000#7 ++ shamt)
  | .add rd rs1 rs2 => encodeR 0b0000000#7 0#3 0b0110011#7 rd rs1 rs2
  | .sub rd rs1 rs2 => encodeR 0b0100000#7 0#3 0b0110011#7 rd rs1 rs2
  | .sll rd rs1 rs2 => encodeR 0b0000000#7 1#3 0b0110011#7 rd rs1 rs2
  | .slt rd rs1 rs2 => encodeR 0b0000000#7 2#3 0b0110011#7 rd rs1 rs2
  | .sltu rd rs1 rs2 => encodeR 0b0000000#7 3#3 0b0110011#7 rd rs1 rs2
  | .xor rd rs1 rs2 => encodeR 0b0000000#7 4#3 0b0110011#7 rd rs1 rs2
  | .srl rd rs1 rs2 => encodeR 0b0000000#7 5#3 0b0110011#7 rd rs1 rs2
  | .sra rd rs1 rs2 => encodeR 0b0100000#7 5#3 0b0110011#7 rd rs1 rs2
  | .or rd rs1 rs2 => encodeR 0b0000000#7 6#3 0b0110011#7 rd rs1 rs2
  | .and rd rs1 rs2 => encodeR 0b0000000#7 7#3 0b0110011#7 rd rs1 rs2
  | .jal rd off => encodeJ rd off
  | .jalr rd rs1 imm => encodeI 0#3 0b1100111#7 rd (regBits rs1) imm
  | .beq rs1 rs2 off => encodeB 0#3 rs1 rs2 off
  | .bne rs1 rs2 off => encodeB 1#3 rs1 rs2 off
  | .blt rs1 rs2 off => encodeB 4#3 rs1 rs2 off
  | .bge rs1 rs2 off => encodeB 5#3 rs1 rs2 off
  | .bltu rs1 rs2 off => encodeB 6#3 rs1 rs2 off
  | .bgeu rs1 rs2 off => encodeB 7#3 rs1 rs2 off
  | .lb rd rs1 imm => encodeI 0#3 0b0000011#7 rd (regBits rs1) imm
  | .lh rd rs1 imm => encodeI 1#3 0b0000011#7 rd (regBits rs1) imm
  | .lw rd rs1 imm => encodeI 2#3 0b0000011#7 rd (regBits rs1) imm
  | .lbu rd rs1 imm => encodeI 4#3 0b0000011#7 rd (regBits rs1) imm
  | .lhu rd rs1 imm => encodeI 5#3 0b0000011#7 rd (regBits rs1) imm
  | .sb rs1 rs2 imm => encodeS 0#3 rs1 rs2 imm
  | .sh rs1 rs2 imm => encodeS 1#3 rs1 rs2 imm
  | .sw rs1 rs2 imm => encodeS 2#3 rs1 rs2 imm
  | .fence => encodeFence 0#3
  | .fenceI => encodeFence 1#3
  | .mul rd rs1 rs2 => encodeR 0b0000001#7 0#3 0b0110011#7 rd rs1 rs2
  | .mulh rd rs1 rs2 => encodeR 0b0000001#7 1#3 0b0110011#7 rd rs1 rs2
  | .mulhsu rd rs1 rs2 => encodeR 0b0000001#7 2#3 0b0110011#7 rd rs1 rs2
  | .mulhu rd rs1 rs2 => encodeR 0b0000001#7 3#3 0b0110011#7 rd rs1 rs2
  | .div rd rs1 rs2 => encodeR 0b0000001#7 4#3 0b0110011#7 rd rs1 rs2
  | .divu rd rs1 rs2 => encodeR 0b0000001#7 5#3 0b0110011#7 rd rs1 rs2
  | .rem rd rs1 rs2 => encodeR 0b0000001#7 6#3 0b0110011#7 rd rs1 rs2
  | .remu rd rs1 rs2 => encodeR 0b0000001#7 7#3 0b0110011#7 rd rs1 rs2
  | .lrW rd rs1 => encodeAmo 0b00010#5 rd rs1 0
  | .scW rd rs1 rs2 => encodeAmo 0b00011#5 rd rs1 rs2
  | .amoswapW rd rs1 rs2 => encodeAmo 0b00001#5 rd rs1 rs2
  | .amoaddW rd rs1 rs2 => encodeAmo 0b00000#5 rd rs1 rs2
  | .amoxorW rd rs1 rs2 => encodeAmo 0b00100#5 rd rs1 rs2
  | .amoandW rd rs1 rs2 => encodeAmo 0b01100#5 rd rs1 rs2
  | .amoorW rd rs1 rs2 => encodeAmo 0b01000#5 rd rs1 rs2
  | .amominW rd rs1 rs2 => encodeAmo 0b10000#5 rd rs1 rs2
  | .amomaxW rd rs1 rs2 => encodeAmo 0b10100#5 rd rs1 rs2
  | .amominuW rd rs1 rs2 => encodeAmo 0b11000#5 rd rs1 rs2
  | .amomaxuW rd rs1 rs2 => encodeAmo 0b11100#5 rd rs1 rs2
  | .csrrw rd csr rs1 => encodeI 1#3 0b1110011#7 rd (regBits rs1) csr
  | .csrrs rd csr rs1 => encodeI 2#3 0b1110011#7 rd (regBits rs1) csr
  | .csrrc rd csr rs1 => encodeI 3#3 0b1110011#7 rd (regBits rs1) csr
  | .csrrwi rd csr zimm => encodeI 5#3 0b1110011#7 rd zimm csr
  | .csrrsi rd csr zimm => encodeI 6#3 0b1110011#7 rd zimm csr
  | .csrrci rd csr zimm => encodeI 7#3 0b1110011#7 rd zimm csr
  | .ecall => encodeSystem 0x000#12
  | .ebreak => encodeSystem 0x001#12
  | .mret => encodeSystem 0x302#12
  | .sret => encodeSystem 0x102#12
  | .wfi => encodeSystem 0x105#12

end Sys2Proof
end

