-- ==== Sys2Proof/Machine/Flags.lean ====
section
/-!
DEFINITION. Sys2Proof/Machine/Flags.lean: "The hardware has no status flags, condition codes or predicate registers"
(10_state.md R38). What a flag decides elsewhere is decided here by comparing two registers directly: the branch
conditions (41_control.md R277-R282) and the comparison results (40_integer.md R222).
-/

namespace Sys2Proof.Machine

/-- `a <s b` on `s32` values (R13, R222). -/
def lessSigned (a b : Word) : Bool := decide (a.toInt < b.toInt)

/-- `a <u b` on unsigned values (R13, R222). -/
def lessUnsigned (a b : Word) : Bool := decide (a.toNat < b.toNat)

/-- `a == b` (R277). -/
def equalWords (a b : Word) : Bool := decide (a = b)

/-- The result of a comparison as a register value: `cond ? 1 : 0` (R227, R228, R238, R239). -/
def boolWord (b : Bool) : Word := if b then 1#32 else 0#32

end Sys2Proof.Machine
end

