-- ==== Sys2Proof/Machine/Bits.lean ====
section
/-!
DEFINITION. Sys2Proof/Machine/Bits.lean: bit fields of registers and bytes of wider registers (00_scope.md R12, R13).
-/

namespace Sys2Proof.Machine

/-- `v[lo+n-1 : lo] <- x`: the field of `n` bits from bit `lo` up is replaced, the other bits stay (R12). -/
def insertBits {m n : Nat} (v : BitVec m) (lo : Nat) (x : BitVec n) : BitVec m :=
  (v &&& ~~~((BitVec.allOnes n).setWidth m <<< lo)) ||| (x.setWidth m <<< lo)

/-- `v[i] <- b`. -/
def setBit {m : Nat} (v : BitVec m) (i : Nat) (b : Bool) : BitVec m := insertBits v i (BitVec.ofBool b)

/-- The bits of `old` outside `mask` and the bits of `new` inside it: `(old & ~mask) | (new & mask)` (R49, R53, R54). -/
def mergeMask {m : Nat} (mask old new : BitVec m) : BitVec m := (old &&& ~~~mask) ||| (new &&& mask)

/-- Byte `k` of a register: `v[8k+7 : 8k]` (R432, R447, R136). -/
def byteOf {m : Nat} (v : BitVec m) (k : Nat) : Byte := v.extractLsb' (8 * k) 8

/-- `v[8k+7 : 8k] <- b`. -/
def setByte {m : Nat} (v : BitVec m) (k : Nat) (b : Byte) : BitVec m := insertBits v (8 * k) b

/-- The byte whose bit `j` is `f j`. -/
def byteOfBits (f : Nat → Bool) : Byte :=
  BitVec.ofBool (f 7) ++ BitVec.ofBool (f 6) ++ BitVec.ofBool (f 5) ++ BitVec.ofBool (f 4) ++ BitVec.ofBool (f 3)
    ++ BitVec.ofBool (f 2) ++ BitVec.ofBool (f 1) ++ BitVec.ofBool (f 0)

end Sys2Proof.Machine
end

