-- ==== Sys2Proof/Config.lean ====
section
/-!
DEFINITION. Sys2Proof/Config.lean: the implementation parameters of 00_scope.md R10, as one record of plain data, and the
free values of the two oracles (log 3, log 4).

"A model takes the parameters below as arguments." `exec` and `step` take a state and nothing else, so the record
stands in State (`State.cfg`) and no step changes it (log 1). The defaults are those of R10; the three the spec leaves
OPEN (FB_BASE, FB_WIDTH, FB_HEIGHT) have a value only in `Config.default` (log 2, DESIGN CHOICE).
-/

namespace Sys2Proof

/-- `EBREAK_MODE` (R10, R366): what `ebreak` does. -/
inductive EbreakMode where
  | nop
  | breakpoint
  | halt
  deriving DecidableEq, Repr

/-- The parameters of R10, each under its own name. `XLEN` (32), `NREGS` (32) and `NCSR` (4096) are fixed (R11) and
are the types `Word`, `RegIdx` and `CsrAddr`. -/
structure Config where
  /-- `RESET_PC`: pc at reset (R472, D2). -/
  resetPc : Word
  /-- `RAM_BASE`: where software images are loaded (D2, D4); it bounds nothing (C7). -/
  ramBase : Word
  /-- `CLINT_BASE` and `CLINT_SIZE` (R101, D3). -/
  clintBase : Word
  clintSize : Nat
  /-- `PLIC_BASE` and `PLIC_SIZE` (R101, D3). -/
  plicBase : Word
  plicSize : Nat
  /-- `UART_BASE` and `UART_SIZE` (R101, D3). -/
  uartBase : Word
  uartSize : Nat
  /-- `FB_BASE`, `FB_WIDTH`, `FB_HEIGHT`: OPEN in the spec (R10, D3, I18). -/
  fbBase : Word
  fbWidth : Nat
  fbHeight : Nat
  /-- `PLIC_NSOURCES`: source ids 0..N-1, 0 reserved (R445, D33). -/
  plicNSources : Nat
  /-- `PLIC_CTX`: the context number whose offsets the single context answers at (R446, D33). -/
  plicCtx : Nat
  /-- `UART_IRQ`: the UART's PLIC source id (R450, D32). -/
  uartIrq : Nat
  /-- `CSR_SET`: the allow-list of valid CSR addresses (R41, R43, D10). -/
  csrSet : List CsrAddr
  /-- `MISA_VALUE` (R57, D1). -/
  misaValue : Word
  /-- `MVENDORID`, `MARCHID`, `MIMPID`, `MHARTID` (R56, D1). -/
  mvendorid : Word
  marchid : Word
  mimpid : Word
  mhartid : Word
  /-- `SELF_TEST`: built-in self-test mode of `ecall` (R362, D25). -/
  selfTest : Bool
  /-- `SELFTEST_DIAG_REG` (R364, D25). -/
  selftestDiagReg : RegIdx
  /-- `EBREAK_MODE` (R366, D24). -/
  ebreakMode : EbreakMode
  /-- `ECALL_TRAPS` (R362, D48). -/
  ecallTraps : Bool
  /-- `SC_ADDRESS_CHECK` (R330, D30). -/
  scAddressCheck : Bool
  /-- `CSR_REG_SETCLR_X0_WRITES` (R352, D14). -/
  csrRegSetClrX0Writes : Bool
  /-- `TRAP_STACKS_IE` (R400, R404, D16). -/
  trapStacksIe : Bool
  /-- `XRET_PRIV_CHECK` (R367, R368, D23). -/
  xretPrivCheck : Bool
  /-- `DELEG_FROM_M` (R401, D19). -/
  delegFromM : Bool
  deriving DecidableEq, Repr

/-- The 46 addresses of the table of 10_state.md R41. -/
def Config.defaultCsrSet : List CsrAddr :=
  [0x100#12, 0x104#12, 0x105#12, 0x106#12, 0x140#12, 0x141#12, 0x142#12, 0x143#12, 0x144#12, 0x180#12]
    ++ [0x300#12, 0x301#12, 0x302#12, 0x303#12, 0x304#12, 0x305#12, 0x306#12]
    ++ [0x340#12, 0x341#12, 0x342#12, 0x343#12, 0x344#12]
    ++ [0x3A0#12, 0x3A1#12, 0x3A2#12, 0x3A3#12]
    ++ [0x3B0#12, 0x3B1#12, 0x3B2#12, 0x3B3#12, 0x3B4#12, 0x3B5#12, 0x3B6#12, 0x3B7#12]
    ++ [0x3B8#12, 0x3B9#12, 0x3BA#12, 0x3BB#12, 0x3BC#12, 0x3BD#12, 0x3BE#12, 0x3BF#12]
    ++ [0xF11#12, 0xF12#12, 0xF13#12, 0xF14#12]

/-- The defaults of R10. `fbBase`, `fbWidth` and `fbHeight` are the model's own (log 2, DESIGN CHOICE: the spec leaves
the framebuffer's place and geometry OPEN). -/
def Config.default : Config where
  resetPc := 0x80000000#32
  ramBase := 0x80000000#32
  clintBase := 0x02000000#32
  clintSize := 0x10000
  plicBase := 0x0C000000#32
  plicSize := 0x4000000
  uartBase := 0x10000000#32
  uartSize := 0x100
  fbBase := 0x20000000#32
  fbWidth := 640
  fbHeight := 480
  plicNSources := 32
  plicCtx := 1
  uartIrq := 10
  csrSet := Config.defaultCsrSet
  misaValue := 0x40141101#32
  mvendorid := 0#32
  marchid := 0#32
  mimpid := 0#32
  mhartid := 0#32
  selfTest := false
  selftestDiagReg := 3
  ebreakMode := .nop
  ecallTraps := false
  scAddressCheck := false
  csrRegSetClrX0Writes := true
  trapStacksIe := true
  xretPrivCheck := true
  delegFromM := true

/-! ## Free values (no body: nothing can be proved of what they are)

They answer a poll for which State lists no answer; each is applied to a counter that State holds, so that a fresh
value stands for every poll. A statement holds whatever they are. -/

/-- The amount of time the time source answers with when its list is empty (R441: "delta is an oracle answer"; log 3). -/
opaque Config.freeTime : Nat → Nat

/-- What the UART input source answers when its list is empty (R121: "a model must hold for every sequence of answers";
log 4). -/
opaque Config.freeInput : Nat → Option Byte

/-- The framebuffer window's size in bytes: `FB_WIDTH * FB_HEIGHT * 4` (R101). -/
def Config.fbSize (c : Config) : Nat := c.fbWidth * c.fbHeight * 4

/-- The four windows of R101 as (base, size), in the decoder's order. -/
def Config.windows (c : Config) : List (Nat × Nat) :=
  [(c.clintBase.toNat, c.clintSize), (c.plicBase.toNat, c.plicSize), (c.uartBase.toNat, c.uartSize),
    (c.fbBase.toNat, c.fbSize)]

/-- Two address ranges share no byte. -/
def Config.disjointRanges (a b : Nat × Nat) : Bool :=
  a.1 + a.2 ≤ b.1 || b.1 + b.2 ≤ a.1

/-- Every window of the list is disjoint from the ones after it. -/
def Config.allDisjoint : List (Nat × Nat) → Bool
  | [] => true
  | r :: rs => rs.all (Config.disjointRanges r) && Config.allDisjoint rs

/-- A configuration the spec admits: "A configuration must make the windows disjoint and keep each inside the 32-bit
space" (R101), and the PLIC ids are "below 256" (R452). The model's step is defined on every configuration; claims that
need a sensible one take this as a premise (log 12, log 15). -/
def Config.valid (c : Config) : Bool :=
  c.windows.all (fun r => r.1 + r.2 ≤ 2 ^ 32) && Config.allDisjoint c.windows && (1 ≤ c.plicNSources)
    && (c.plicNSources ≤ 256)

end Sys2Proof
end

