-- ==== Sys2Proof/Machine/State.lean ====
section
/-!
DEFINITION. Sys2Proof/Machine/State.lean: all the state the spec gives the machine (10_state.md R30-R63, 20_memory.md
R102, R113, R135, 60_exceptions.md R430, R445), as plain data, and its value after reset (70_reset_and_hazards.md R470).

Two fields are the model's own: `State.timeSource` and `Uart.input` are the two oracles (R441, R121; log 3, log 4). `State.cfg` holds the parameters of 00_scope.md R10, which no step changes (log 1).
-/

namespace Sys2Proof.Machine

/-! ## Privilege mode and run state (R36, R37) -/

/-- The privilege modes of R36: "enumerated {User=0, Supervisor=1, (Hypervisor=2, unused), Machine=3}". -/
inductive Mode where
  | user
  | supervisor
  | hypervisor
  | machine
  deriving DecidableEq, Repr

/-- Why a halted engine halted (R37). -/
inductive HaltReason where
  /-- Four zero bytes were fetched. -/
  | zeroWord
  /-- The fetched word has no mapping. -/
  | decodeError (w : Word)
  /-- A self-test `ecall` found a0 in {0, 42}. -/
  | selfTestPass (a0 : Word)
  /-- A self-test `ecall` found another a0. -/
  | selfTestFail (a0 diag : Word)
  /-- `ebreak` with `EBREAK_MODE = Halt`. -/
  | ebreakHalt
  deriving DecidableEq, Repr

/-- The engine's run state (R37). -/
inductive RunState where
  | running
  | halted (reason : HaltReason)
  deriving DecidableEq, Repr

/-! ## The CSR file (R40-R58) -/

/-- The stored CSRs, each under its own name. Views (sstatus, sie, sip) and constants (misa, the identity registers)
have no storage. `other` holds the words of the 4096-register bank (R40) at addresses the table of R41 does not list;
they can be reached only when `CSR_SET` is a larger list than the default (log 7). -/
structure CsrFile where
  mstatus : Word
  medeleg : Word
  mideleg : Word
  mie : Word
  mip : Word
  mtvec : Word
  stvec : Word
  mscratch : Word
  sscratch : Word
  mepc : Word
  sepc : Word
  mcause : Word
  scause : Word
  mtval : Word
  stval : Word
  satp : Word
  mcounteren : Word
  scounteren : Word
  pmpcfg : Vector Word 4
  pmpaddr : Vector Word 16
  other : Sparse 32
  deriving DecidableEq, Repr

/-! ## Oracles -/

/-- An oracle (R121, R441): its next answers, as far as they are listed, and the number of answers it has given beyond
the list. Those are free values (Sys2Proof/Config.lean), so that its answers never run out. -/
structure Oracle (α : Type) where
  next : List α
  count : Nat
  deriving DecidableEq, Repr

/-! ## Devices -/

/-- The UART's registers (20_memory.md R113), its output stream, oldest byte first (R120), and its
input source (R121; the model's own field, log 4). -/
structure Uart where
  rbr : Byte
  ier : Byte
  fcr : Byte
  lcr : Byte
  mcr : Byte
  lsr : Byte
  msr : Byte
  scr : Byte
  div0 : Byte
  div1 : Byte
  div2 : Byte
  output : List Byte
  input : Oracle (Option Byte)
  deriving DecidableEq, Repr

/-- The CLINT's registers (60_exceptions.md R430); of `msip` only bit 0 is stored. -/
structure Clint where
  msip : Bool
  mtime : DWord
  mtimecmp : DWord
  deriving DecidableEq, Repr

/-- The PLIC's state (60_exceptions.md R445). The per-source registers are sparse maps from the source id, 0 where
nothing is listed. -/
structure Plic where
  priority : Sparse 32
  pending : Sparse 1
  enable : Sparse 1
  inService : Sparse 1
  threshold : Word
  claimLatch : Word
  deriving DecidableEq, Repr

/-! ## The machine -/

/-- RAM: (address, byte) pairs (20_memory.md R102). -/
abbrev Memory := List Host.Cell

/-- The whole state of the machine. -/
structure State where
  /-- The parameters of 00_scope.md R10; no step changes them. -/
  cfg : Config
  /-- x0 to x31 (R30). The slot of x0 is never written; reading x0 gives 0 (R31). -/
  regs : Vector Word 32
  /-- R33. -/
  pc : Word
  /-- R36. -/
  mode : Mode
  /-- R37. -/
  run : RunState
  /-- R40. -/
  csr : CsrFile
  /-- The reservation flag (R60). -/
  resv : Bool
  /-- The reserved address, kept when `SC_ADDRESS_CHECK` is true (R60, R330). -/
  resvAddr : Word
  /-- RAM (R102). -/
  mem : Memory
  /-- R113. -/
  uart : Uart
  /-- R430. -/
  clint : Clint
  /-- R445. -/
  plic : Plic
  /-- The framebuffer's pixels by index, 0 where nothing is listed (R135). -/
  fb : Sparse 32
  /-- The time source (R441; the model's own field, log 3). -/
  timeSource : Oracle Nat
  deriving DecidableEq, Repr

/-- Reasons a step stops with a fault. There is none: every exception of this hardware is taken (R397, R400), every
undecodable word halts the engine, which is a state (R392), and the spec gives every access and every instruction an
effect. No constructor, so nobody raises one; this is safe only because the spec leaves no behaviour undefined. -/
inductive Fault where
  deriving DecidableEq, Repr

/-- Reasons a step is refused. -/
inductive Refusal where
  /-- Raised by `exec` alone, for an instruction that has no meaning yet, with its mnemonic of spec/opcode_table.json.
  Safe: the model stops. No arm of the present `exec` raises it. -/
  | notModelled (mnemonic : String)
  deriving DecidableEq, Repr

/-! ## Reset (70_reset_and_hazards.md R470) -/

/-- R470: every CSR 0. -/
def CsrFile.reset : CsrFile where
  mstatus := 0#32
  medeleg := 0#32
  mideleg := 0#32
  mie := 0#32
  mip := 0#32
  mtvec := 0#32
  stvec := 0#32
  mscratch := 0#32
  sscratch := 0#32
  mepc := 0#32
  sepc := 0#32
  mcause := 0#32
  scause := 0#32
  mtval := 0#32
  stval := 0#32
  satp := 0#32
  mcounteren := 0#32
  scounteren := 0#32
  pmpcfg := Vector.replicate 4 0#32
  pmpaddr := Vector.replicate 16 0#32
  other := []

/-- R470, R113: every UART register 0 except `lsr = 0x60`; nothing emitted; no input answer listed (log 4). -/
def Uart.reset : Uart where
  rbr := 0#8
  ier := 0#8
  fcr := 0#8
  lcr := 0#8
  mcr := 0#8
  lsr := 0x60#8
  msr := 0#8
  scr := 0#8
  div0 := 0#8
  div1 := 0#8
  div2 := 0#8
  output := []
  input := ⟨[], 0⟩

/-- R470, R430. -/
def Clint.reset : Clint where
  msip := false
  mtime := 0#64
  mtimecmp := 0xFFFFFFFFFFFFFFFF#64

/-- R470, R445: all 0. -/
def Plic.reset : Plic where
  priority := []
  pending := []
  enable := []
  inService := []
  threshold := 0#32
  claimLatch := 0#32

/-- The state after reset of a machine with parameters `cfg` (R470). The time source acts "only between engine steps"
(R441), so its answer for the first step is 0, and later ones are free (log 3). -/
def State.resetWith (cfg : Config) : State where
  cfg := cfg
  regs := Vector.replicate 32 0#32
  pc := cfg.resetPc
  mode := .machine
  run := .running
  csr := CsrFile.reset
  resv := false
  resvAddr := 0#32
  mem := []
  uart := Uart.reset
  clint := Clint.reset
  plic := Plic.reset
  fb := []
  timeSource := ⟨[0], 0⟩

/-- The machine right after reset, with the default parameters (R470, R10). -/
def State.reset : State := State.resetWith Config.default

end Sys2Proof.Machine
end

