-- ==== Sys2Proof/Machine/Clint.lean ====
section
/-!
DEFINITION. Sys2Proof/Machine/Clint.lean: the CLINT's byte accesses and levels, and the time source
(60_exceptions.md R430-R441).
-/

namespace Sys2Proof.Machine

/-- `readByte(o)` of the CLINT (R432). -/
def Clint.readByte (c : Clint) (o : Nat) : Byte :=
  if o ≤ 0x0003 then (if o = 0 then (BitVec.ofBool c.msip).setWidth 8 else 0#8)
  else if 0x4000 ≤ o ∧ o ≤ 0x4007 then byteOf c.mtimecmp (o - 0x4000)
  else if 0xBFF8 ≤ o ∧ o ≤ 0xBFFF then byteOf c.mtime (o - 0xBFF8)
  else 0#8

/-- `writeByte(o, b)` of the CLINT (R432). -/
def Clint.writeByte (c : Clint) (o : Nat) (b : Byte) : Clint :=
  if o = 0x0000 then { c with msip := b.getLsbD 0 }
  else if 0x4000 ≤ o ∧ o ≤ 0x4007 then { c with mtimecmp := setByte c.mtimecmp (o - 0x4000) b }
  else if 0xBFF8 ≤ o ∧ o ≤ 0xBFFF then { c with mtime := setByte c.mtime (o - 0xBFF8) b }
  else c

/-- The machine-timer level: `mtime >=u64 mtimecmp` (R433). -/
def Clint.timerLevel (c : Clint) : Bool := decide (c.mtimecmp.toNat ≤ c.mtime.toNat)

/-- `TimeStep(delta)`: `mtime <- (mtime + delta) mod 2^64` (R441). -/
def Clint.advance (c : Clint) (delta : Nat) : Clint := { c with mtime := c.mtime + BitVec.ofNat 64 delta }

end Sys2Proof.Machine
end

