-- ==== Sys2Proof/Machine/Memory.lean ====
section
/-!
DEFINITION. Sys2Proof/Machine/Memory.lean: sparse maps in canonical form, and RAM as one of them (20_memory.md R102).

A map lists its keys strictly rising and lists no value equal to what an unlisted key reads as, so that equal maps are
equal lists. RAM, the framebuffer's pixels, the PLIC's per-source registers and the CSR bank's extra words are such maps;
for each of them the spec's reset contents are 0 (R470), which is what an unlisted key reads as.
-/

namespace Sys2Proof.Machine

/-- What an unlisted key reads as: 0 (R102 "A byte no store and no loaded image has written reads 0", R470; log 6). -/
def unlisted (w : Nat) : BitVec w := 0#w

/-- The value at key `a`. -/
def Sparse.get {w : Nat} : Sparse w → Nat → BitVec w
  | [], _ => unlisted w
  | (k, v) :: m, a => if a = k then v else Sparse.get m a

/-- The map with `v` at key `a`; writing what an unlisted key reads as removes the entry. -/
def Sparse.set {w : Nat} : Sparse w → Nat → BitVec w → Sparse w
  | [], a, v => if v = unlisted w then [] else [(a, v)]
  | (k, x) :: m, a, v =>
    if a < k then (if v = unlisted w then (k, x) :: m else (a, v) :: (k, x) :: m)
    else if a = k then (if v = unlisted w then m else (a, v) :: m)
    else (k, x) :: Sparse.set m a v

/-- Every key of the map is above `a`. -/
def Sparse.above {w : Nat} (a : Nat) (m : Sparse w) : Bool := m.all (fun e => decide (a < e.1))

/-- The canonical form: keys strictly rising, no value equal to `unlisted`. -/
def Sparse.wf {w : Nat} : Sparse w → Bool
  | [] => true
  | (k, v) :: m => decide (v ≠ unlisted w) && Sparse.above k m && Sparse.wf m

/-- Every key of the map lies in `lo ≤ k < hi`. -/
def Sparse.within {w : Nat} (lo hi : Nat) (m : Sparse w) : Bool :=
  m.all (fun e => decide (lo ≤ e.1) && decide (e.1 < hi))

/-- RAM in canonical form: a canonical map whose keys are 32-bit addresses (R100, R102). -/
def Memory.wf (m : Memory) : Bool := Sparse.wf (w := 8) m && Sparse.within (w := 8) 0 (2 ^ 32) m

/-- The RAM byte at a 32-bit address (R102). -/
def Memory.read (m : Memory) (a : Word) : Byte := Sparse.get (w := 8) m a.toNat

/-- RAM with byte `b` at address `a`; every other byte stays (R102). -/
def Memory.write (m : Memory) (a : Word) (b : Byte) : Memory := Sparse.set (w := 8) m a.toNat b

end Sys2Proof.Machine
end

