-- ==== Sys2Proof/Machine/Framebuffer.lean ====
section
/-!
DEFINITION. Sys2Proof/Machine/Framebuffer.lean: byte accesses to pixel storage (20_memory.md R135, R136).
-/

namespace Sys2Proof.Machine

/-- `pixel[i]` (R135). -/
def pixel (fb : Sparse 32) (i : Nat) : Word := Sparse.get fb i

/-- `readByte(o) = pixel[o >> 2][8k+7 : 8k]` with `k = o & 3` (R136). -/
def fbReadByte (fb : Sparse 32) (o : Nat) : Byte := byteOf (pixel fb (o / 4)) (o % 4)

/-- `writeByte(o, b) : pixel[o >> 2][8k+7 : 8k] <- b` (R136). -/
def fbWriteByte (fb : Sparse 32) (o : Nat) (b : Byte) : Sparse 32 :=
  Sparse.set fb (o / 4) (setByte (pixel fb (o / 4)) (o % 4) b)

end Sys2Proof.Machine
end

