-- ==== Sys2Proof/Machine/Plic.lean ====
section
/-!
DEFINITION. Sys2Proof/Machine/Plic.lean: the PLIC (60_exceptions.md R445-R455). `n` is `PLIC_NSOURCES` and `ctx` is
`PLIC_CTX`; the sources are 1 to n-1 (R445). Where a configuration has so many sources that two rows of the register map
would overlap, the first row in the order of R446 answers (log 12).
-/

namespace Sys2Proof.Machine

/-- `s in 1..N-1` (R445). -/
def isSource (n s : Nat) : Bool := decide (1 ≤ s) && decide (s < n)

/-- One bit of a per-source bit set. -/
def bitAt (m : Sparse 1) (s : Nat) : Bool := Sparse.get m s == 1#1

/-- A per-source bit set with bit `s` set to `b`. -/
def setBitAt (m : Sparse 1) (s : Nat) (b : Bool) : Sparse 1 := Sparse.set m s (BitVec.ofBool b)

/-- `pending[s] and enable[s] and priority[s] >u threshold` (R451, R454). -/
def Plic.claimable (p : Plic) (s : Nat) : Bool :=
  bitAt p.pending s && bitAt p.enable s && decide (p.threshold.toNat < (Sparse.get p.priority s).toNat)

/-- The source ids 1 to n-1 in rising order. -/
def sources (n : Nat) : List Nat := (List.range n).filter (fun s => decide (1 ≤ s))

/-- `PlicOutput()` (R454). -/
def Plic.output (p : Plic) (n : Nat) : Bool := (sources n).any p.claimable

/-- One source looked at after `best` in rising order of id: it is better only with a higher priority, so that "among
equal priorities, the smallest s" stays (R451). -/
def Plic.betterOf (p : Plic) (best : Option Nat) (s : Nat) : Option Nat :=
  if p.claimable s then
    match best with
    | none => some s
    | some t => if (Sparse.get p.priority t).toNat < (Sparse.get p.priority s).toNat then some s else some t
  else best

/-- The source a claim takes, if any (R451). -/
def Plic.best (p : Plic) (n : Nat) : Option Nat := (sources n).foldl p.betterOf none

/-- The claim itself (R451, lane 0): the id goes to the latch; 0 when no source is claimable. -/
def Plic.claim (p : Plic) (n : Nat) : Plic :=
  match p.best n with
  | none => { p with claimLatch := 0#32 }
  | some id =>
    { p with
      pending := setBitAt p.pending id false
      inService := setBitAt p.inService id true
      claimLatch := BitVec.ofNat 32 id }

/-- `ClaimRead(lane)` (R451). -/
def Plic.claimRead (p : Plic) (n lane : Nat) : Byte × Plic :=
  let p' := if lane = 0 then p.claim n else p
  (byteOf p'.claimLatch lane, p')

/-- `CompleteWrite(lane, b)` (R452). -/
def Plic.completeWrite (p : Plic) (n lane : Nat) (b : Byte) : Plic :=
  if lane = 0 ∧ isSource n b.toNat then { p with inService := setBitAt p.inService b.toNat false } else p

/-- `PlicGateways()` for the level of each source (R453). -/
def Plic.gateways (p : Plic) (n : Nat) (level : Nat → Bool) : Plic :=
  { p with
    pending := (sources n).foldl
      (fun m s => if level s && !bitAt p.inService s then setBitAt m s true else m) p.pending }

/-! ## The register map (R446) -/

/-- Offset of the enable words: `0x00_2000 + 0x80*PLIC_CTX`. -/
def plicEnableBase (ctx : Nat) : Nat := 0x2000 + 0x80 * ctx

/-- Offset of the threshold: `0x20_0000 + 0x1000*PLIC_CTX`. -/
def plicThresholdBase (ctx : Nat) : Nat := 0x200000 + 0x1000 * ctx

/-- Offset of claim/complete: `0x20_0004 + 0x1000*PLIC_CTX`. -/
def plicClaimBase (ctx : Nat) : Nat := 0x200004 + 0x1000 * ctx

/-- What an offset of the PLIC window names (R446). -/
inductive PlicReg where
  /-- Byte `lane` of `priority[s]`. -/
  | priority (s lane : Nat)
  /-- The pending bits of sources `first` to `first + 7`. -/
  | pending (first : Nat)
  /-- The enable bits of sources `first` to `first + 7`. -/
  | enable (first : Nat)
  /-- Byte `lane` of the threshold. -/
  | threshold (lane : Nat)
  /-- Byte `lane` of claim/complete. -/
  | claim (lane : Nat)
  /-- No register (R112). -/
  | none
  deriving DecidableEq, Repr

/-- The register map of R446: bits of source 0 and of sources at or above N belong to no register. -/
def plicReg (n ctx o : Nat) : PlicReg :=
  if o < 4 * n then .priority (o / 4) (o % 4)
  else if 0x1000 ≤ o ∧ 8 * (o - 0x1000) < n then .pending (8 * (o - 0x1000))
  else if plicEnableBase ctx ≤ o ∧ 8 * (o - plicEnableBase ctx) < n then .enable (8 * (o - plicEnableBase ctx))
  else if plicThresholdBase ctx ≤ o ∧ o < plicThresholdBase ctx + 4 then .threshold (o - plicThresholdBase ctx)
  else if plicClaimBase ctx ≤ o ∧ o < plicClaimBase ctx + 4 then .claim (o - plicClaimBase ctx)
  else .none

/-- Eight bits of a per-source bit set; the bits of ids that are no source read 0 (R446). -/
def sourceByte (n : Nat) (m : Sparse 1) (first : Nat) : Byte :=
  byteOfBits (fun j => isSource n (first + j) && bitAt m (first + j))

/-- Eight bits written to a per-source bit set; the bits of ids that are no source are ignored (R447). -/
def setSourceByte (n : Nat) (m : Sparse 1) (first : Nat) (b : Byte) : Sparse 1 :=
  (List.range 8).foldl
    (fun m j => if isSource n (first + j) then setBitAt m (first + j) (b.getLsbD j) else m) m

/-- `readByte(o)` of the PLIC (R446, R447, R451). -/
def Plic.readByte (p : Plic) (n ctx o : Nat) : Byte × Plic :=
  match plicReg n ctx o with
  | .priority s lane => (if isSource n s then byteOf (Sparse.get p.priority s) lane else 0#8, p)
  | .pending first => (sourceByte n p.pending first, p)
  | .enable first => (sourceByte n p.enable first, p)
  | .threshold lane => (byteOf p.threshold lane, p)
  | .claim lane => p.claimRead n lane
  | .none => (0#8, p)

/-- `writeByte(o, b)` of the PLIC (R446, R447, R452). -/
def Plic.writeByte (p : Plic) (n ctx o : Nat) (b : Byte) : Plic :=
  match plicReg n ctx o with
  | .priority s lane =>
    if isSource n s then { p with priority := Sparse.set p.priority s (setByte (Sparse.get p.priority s) lane b) } else p
  | .pending _ => p
  | .enable first => { p with enable := setSourceByte n p.enable first b }
  | .threshold lane => { p with threshold := setByte p.threshold lane b }
  | .claim lane => p.completeWrite n lane b
  | .none => p

end Sys2Proof.Machine
end

