-- ==== Sys2Proof/Machine/Oracle.lean ====
section
/-!
DEFINITION. Sys2Proof/Machine/Oracle.lean: asking an oracle (20_memory.md R121, 60_exceptions.md R441).
-/

namespace Sys2Proof.Machine

/-- The next answer, and the oracle after it: the first one listed, or, when none is listed, the free value of the
counter, which then advances. -/
def Oracle.ask {α : Type} (free : Nat → α) (o : Oracle α) : α × Oracle α :=
  match o.next with
  | [] => (free o.count, { o with count := o.count + 1 })
  | a :: rest => (a, { o with next := rest })

end Sys2Proof.Machine
end

