-- ==== Sys2Proof/Machine/Uart.lean ====
section
/-!
DEFINITION. Sys2Proof/Machine/Uart.lean: the UART's byte accesses (20_memory.md R112-R122).
-/

namespace Sys2Proof.Machine

/-- `DLAB = lcr[7]` (R113). -/
def Uart.dlab (u : Uart) : Bool := u.lcr.getLsbD 7

/-- The interrupt line: `ier[0] AND lsr[0]` (R122). -/
def Uart.irq (u : Uart) : Bool := u.ier.getLsbD 0 && u.lsr.getLsbD 0

/-- Reading offset 0 with DLAB = 0: `r := rbr ; lsr[0] <- 0 ; return r` (R115). -/
def Uart.readRbr (u : Uart) : Byte × Uart := (u.rbr, { u with lsr := setBit u.lsr 0 false })

/-- Writing offset 0 with DLAB = 0: `output.append(b) ; lsr <- lsr | 0x60` (R116). -/
def Uart.transmit (u : Uart) (b : Byte) : Uart := { u with output := u.output ++ [b], lsr := u.lsr ||| 0x60#8 }

/-- Reading offset 2 with DLAB = 0: `uart_irq ? 0x04 : 0x01` (R117). -/
def Uart.iir (u : Uart) : Byte := if u.irq then 0x04#8 else 0x01#8

/-- One poll of the input source (R121): its next answer, a free one when none is listed (log 4). -/
def Uart.poll (u : Uart) : Option Byte × Uart :=
  let r := u.input.ask Config.freeInput
  (r.1, { u with input := r.2 })

/-- The poll's answer is put into the receive buffer: `if r = Some(b): rbr <- b ; lsr[0] <- 1` (R119). -/
def Uart.receive (u : Uart) (r : Option Byte) : Uart :=
  match r with
  | some b => { u with rbr := b, lsr := setBit u.lsr 0 true }
  | none => u

/-- Reading offset 5: poll, then return `lsr` (R119). -/
def Uart.readLsr (u : Uart) : Byte × Uart :=
  let u' := u.poll.2.receive u.poll.1
  (u'.lsr, u')

/-- `readByte(o)` of the UART (R114). -/
def Uart.readByte (u : Uart) (o : Nat) : Byte × Uart :=
  match o with
  | 0 => if u.dlab then (u.div0, u) else u.readRbr
  | 1 => if u.dlab then (u.div1, u) else (u.ier, u)
  | 2 => if u.dlab then (u.div2, u) else (u.iir, u)
  | 3 => (u.lcr, u)
  | 4 => (u.mcr, u)
  | 5 => u.readLsr
  | 6 => (u.msr, u)
  | 7 => (u.scr, u)
  | _ => (0#8, u)

/-- `writeByte(o, b)` of the UART (R114). -/
def Uart.writeByte (u : Uart) (o : Nat) (b : Byte) : Uart :=
  match o with
  | 0 => if u.dlab then { u with div0 := b } else u.transmit b
  | 1 => if u.dlab then { u with div1 := b } else { u with ier := b }
  | 2 => if u.dlab then { u with div2 := b } else { u with fcr := b }
  | 3 => { u with lcr := b }
  | 4 => { u with mcr := b }
  | 5 => u
  | 6 => { u with msr := b }
  | 7 => { u with scr := b }
  | _ => u

end Sys2Proof.Machine
end

