-- ==== Sys2Proof/Machine/Bus.lean ====
section
/-!
DEFINITION. Sys2Proof/Machine/Bus.lean: the bus decoder and the byte sequences of an access (20_memory.md R100-R112),
and the load of a program image (70_reset_and_hazards.md R474).

A byte read returns the byte and the state after its side effects (R111); a byte write returns the state. Wider
accesses are sequences of byte accesses at ascending addresses (R103, R104), so byte order is decided here, once.
-/

namespace Sys2Proof.Machine

/-- Where the decoder sends a byte access (R101), with the offset inside the window. -/
inductive Route where
  | clint (o : Nat)
  | plic (o : Nat)
  | uart (o : Nat)
  | fb (o : Nat)
  | ram
  deriving DecidableEq, Repr

/-- `u(base) <= u(a) < u(base) + size` (R101). -/
def inWindow (base : Word) (size : Nat) (a : Word) : Bool :=
  decide (base.toNat ≤ a.toNat) && decide (a.toNat < base.toNat + size)

/-- `route(a)` of R101: the first window that holds the address, else RAM. -/
def route (c : Config) (a : Word) : Route :=
  if inWindow c.clintBase c.clintSize a then .clint (a.toNat - c.clintBase.toNat)
  else if inWindow c.plicBase c.plicSize a then .plic (a.toNat - c.plicBase.toNat)
  else if inWindow c.uartBase c.uartSize a then .uart (a.toNat - c.uartBase.toNat)
  else if inWindow c.fbBase c.fbSize a then .fb (a.toNat - c.fbBase.toNat)
  else .ram

/-- `BusReadByte(a)` (R103): the byte, and the state after the read's side effects (R111). -/
def busReadByte (a : Word) (s : State) : Byte × State :=
  match route s.cfg a with
  | .clint o => (s.clint.readByte o, s)
  | .plic o =>
    let r := s.plic.readByte s.cfg.plicNSources s.cfg.plicCtx o
    (r.1, { s with plic := r.2 })
  | .uart o =>
    let r := s.uart.readByte o
    (r.1, { s with uart := r.2 })
  | .fb o => (fbReadByte s.fb o, s)
  | .ram => (s.mem.read a, s)

/-- `BusWriteByte(a, b)` (R104). -/
def busWriteByte (a : Word) (b : Byte) (s : State) : State :=
  match route s.cfg a with
  | .clint o => { s with clint := s.clint.writeByte o b }
  | .plic o => { s with plic := s.plic.writeByte s.cfg.plicNSources s.cfg.plicCtx o b }
  | .uart o => { s with uart := s.uart.writeByte o b }
  | .fb o => { s with fb := fbWriteByte s.fb o b }
  | .ram => { s with mem := s.mem.write a b }

/-- `MemRead(a, n)` (R103), zero-extended to 32 bits: byte `i` of the result is the byte at `a + i` (wrapping, R107),
read in ascending order. -/
def memRead : Nat → Word → State → Word × State
  | 0, _, s => (0#32, s)
  | n + 1, a, s =>
    let r := busReadByte a s
    let rest := memRead n (a + 1#32) r.2
    (r.1.setWidth 32 ||| (rest.1 <<< 8), rest.2)

/-- `MemWrite(a, n, v)` (R104): the `n` low bytes of `v`, least significant first, at ascending addresses. -/
def memWrite : Nat → Word → Word → State → State
  | 0, _, _, s => s
  | n + 1, a, v, s => memWrite n (a + 1#32) (v >>> 8) (busWriteByte a (v.setWidth 8) s)

/-- The addresses of the `n` bytes of an access at `a` (R103, R107). -/
def accessBytes (a : Word) (n : Nat) : List Word := (List.range n).map (fun i => a + BitVec.ofNat 32 i)

/-! ## Loading (R474) -/

/-- An image byte lies in RAM: its address has 32 bits and no window intercepts it (R474). -/
def imageByteInRam (c : Config) (e : Host.Cell) : Bool :=
  decide (e.1 < 2 ^ 32) && (route c (BitVec.ofNat 32 e.1) == .ram)

/-- The image written into RAM before the first step (R474). Nothing but RAM changes. An image that overlaps a window,
which R474 lets a model reject, is rejected, and so is one with an address of 2^32 or more (log 21, DESIGN CHOICE). -/
def loadImage (image : List Host.Cell) (s : State) : Option State :=
  if image.all (imageByteInRam s.cfg) then
    some { s with mem := image.foldl (fun m e => m.write (BitVec.ofNat 32 e.1) e.2) s.mem }
  else none

/-- The bytes of a list of instruction words laid out from address `a` (R106, R170). -/
def imageOfWords : Word → List Word → List Host.Cell
  | _, [] => []
  | a, w :: ws =>
    [(a.toNat, byteOf w 0), ((a + 1#32).toNat, byteOf w 1), ((a + 2#32).toNat, byteOf w 2),
      ((a + 3#32).toNat, byteOf w 3)] ++ imageOfWords (a + 4#32) ws

/-- A program loaded at `RAM_BASE`, the "well-known load address" (R10, R472, R474). -/
def loadProgram (ws : List Word) (s : State) : Option State := loadImage (imageOfWords s.cfg.ramBase ws) s

end Sys2Proof.Machine
end

