-- ==== Sys2Proof/Machine/Csr.lean ====
section
/-!
DEFINITION. Sys2Proof/Machine/Csr.lean: the CSR file (10_state.md R40-R59): addresses, permissions, storage kinds, the
fields of `mstatus`, and the checked accessors `CsrGet` and `CsrSet`.

The accessors answer `none` where the spec says `raise IllegalInstruction`; the instructions then take that exception
(Sys2Proof/Machine/Ops.lean, `raise`).
-/

namespace Sys2Proof.Machine

/-! ## Modes as numbers (R36) -/

/-- The number of a mode. -/
def Mode.bits : Mode → BitVec 2
  | .user => 0#2
  | .supervisor => 1#2
  | .hypervisor => 2#2
  | .machine => 3#2

/-- The mode of a number. -/
def Mode.ofBits (b : BitVec 2) : Mode :=
  if b = 0#2 then .user else if b = 1#2 then .supervisor else if b = 2#2 then .hypervisor else .machine

/-- `mode < m`: every privilege comparison compares the numbers (R36, R396). -/
def Mode.lt (a b : Mode) : Bool := decide (a.bits.toNat < b.bits.toNat)

/-! ## Fields of `mstatus` (R47) -/

/-- Bit 1, SIE. -/
def mstatusSie (v : Word) : Bool := v.getLsbD 1
/-- Bit 3, MIE. -/
def mstatusMie (v : Word) : Bool := v.getLsbD 3
/-- Bit 5, SPIE. -/
def mstatusSpie (v : Word) : Bool := v.getLsbD 5
/-- Bit 7, MPIE. -/
def mstatusMpie (v : Word) : Bool := v.getLsbD 7
/-- Bit 8, SPP. -/
def mstatusSpp (v : Word) : Bool := v.getLsbD 8
/-- Bits 12:11, MPP. -/
def mstatusMpp (v : Word) : BitVec 2 := v.extractLsb' 11 2

/-- `MSTATUS_MASK`: the stored bits (R47). -/
def mstatusMask : Word := 0x807FF9BB#32
/-- `SSTATUS_MASK` (R49). -/
def sstatusMask : Word := 0x800DE133#32
/-- The S-level bits of `mie` and `mip` (R54). -/
def sLevelMask : Word := 0x222#32
/-- The software-writable bits of `mip`: SSIP and STIP (R53). -/
def mipWriteMask : Word := 0x22#32
/-- The software-writable bit of `sip`: SSIP (R54). -/
def sipWriteMask : Word := 0x2#32

/-! ## Addresses and permissions (R41-R43) -/

/-- The register at a CSR address: the rows of the table of R41, and any other word of the bank (R40). -/
inductive CsrReg where
  | sstatus | sie | stvec | scounteren | sscratch | sepc | scause | stval | sip | satp
  | mstatus | misa | medeleg | mideleg | mie | mtvec | mcounteren | mscratch | mepc | mcause | mtval | mip
  | pmpcfg (i : Fin 4)
  | pmpaddr (i : Fin 16)
  | mvendorid | marchid | mimpid | mhartid
  | other (c : CsrAddr)
  deriving DecidableEq, Repr

/-- The table of R41, by address. -/
def csrReg (c : CsrAddr) : CsrReg :=
  match c with
  | 0x100#12 => .sstatus
  | 0x104#12 => .sie
  | 0x105#12 => .stvec
  | 0x106#12 => .scounteren
  | 0x140#12 => .sscratch
  | 0x141#12 => .sepc
  | 0x142#12 => .scause
  | 0x143#12 => .stval
  | 0x144#12 => .sip
  | 0x180#12 => .satp
  | 0x300#12 => .mstatus
  | 0x301#12 => .misa
  | 0x302#12 => .medeleg
  | 0x303#12 => .mideleg
  | 0x304#12 => .mie
  | 0x305#12 => .mtvec
  | 0x306#12 => .mcounteren
  | 0x340#12 => .mscratch
  | 0x341#12 => .mepc
  | 0x342#12 => .mcause
  | 0x343#12 => .mtval
  | 0x344#12 => .mip
  | 0xF11#12 => .mvendorid
  | 0xF12#12 => .marchid
  | 0xF13#12 => .mimpid
  | 0xF14#12 => .mhartid
  | c =>
    if c.extractLsb' 2 10 = 0xE8#10 then .pmpcfg (c.extractLsb' 0 2).toFin
    else if c.extractLsb' 4 8 = 0x3B#8 then .pmpaddr (c.extractLsb' 0 4).toFin
    else .other c

/-- `readOnly(c) = (c[11:10] == 0b11)` (R42). -/
def csrReadOnly (c : CsrAddr) : Bool := c.extractLsb' 10 2 == 0b11#2

/-- `minMode(c) = c[9:8]` (R42). -/
def csrMinMode (c : CsrAddr) : Mode := Mode.ofBits (c.extractLsb' 8 2)

/-- `valid(c)`: c is in `CSR_SET` (R43). -/
def csrValid (cfg : Config) (c : CsrAddr) : Bool := cfg.csrSet.contains c

/-! ## Storage kinds (R46-R58) -/

/-- `readValue(c)`, per storage kind. -/
def csrReadValue (cfg : Config) (f : CsrFile) (c : CsrAddr) : Word :=
  match csrReg c with
  | .sstatus => f.mstatus &&& sstatusMask
  | .sie => f.mie &&& sLevelMask
  | .stvec => f.stvec
  | .scounteren => f.scounteren
  | .sscratch => f.sscratch
  | .sepc => f.sepc
  | .scause => f.scause
  | .stval => f.stval
  | .sip => f.mip &&& sLevelMask
  | .satp => f.satp
  | .mstatus => f.mstatus
  | .misa => cfg.misaValue
  | .medeleg => f.medeleg
  | .mideleg => f.mideleg
  | .mie => f.mie
  | .mtvec => f.mtvec
  | .mcounteren => f.mcounteren
  | .mscratch => f.mscratch
  | .mepc => f.mepc
  | .mcause => f.mcause
  | .mtval => f.mtval
  | .mip => f.mip
  | .pmpcfg i => f.pmpcfg[i]
  | .pmpaddr i => f.pmpaddr[i]
  | .mvendorid => cfg.mvendorid
  | .marchid => cfg.marchid
  | .mimpid => cfg.mimpid
  | .mhartid => cfg.mhartid
  | .other a => Sparse.get f.other a.toNat

/-- `writeValue(c, v)`, per storage kind. The identity registers are read-only (R56), so no write reaches them;
`misa` discards the write (R57). -/
def csrWriteValue (f : CsrFile) (c : CsrAddr) (v : Word) : CsrFile :=
  match csrReg c with
  | .sstatus => { f with mstatus := mergeMask sstatusMask f.mstatus v }
  | .sie => { f with mie := mergeMask sLevelMask f.mie v }
  | .stvec => { f with stvec := v }
  | .scounteren => { f with scounteren := v }
  | .sscratch => { f with sscratch := v }
  | .sepc => { f with sepc := v }
  | .scause => { f with scause := v }
  | .stval => { f with stval := v }
  | .sip => { f with mip := mergeMask sipWriteMask f.mip v }
  | .satp => { f with satp := v }
  | .mstatus => { f with mstatus := v &&& mstatusMask }
  | .misa => f
  | .medeleg => { f with medeleg := v }
  | .mideleg => { f with mideleg := v }
  | .mie => { f with mie := v }
  | .mtvec => { f with mtvec := v }
  | .mcounteren => { f with mcounteren := v }
  | .mscratch => { f with mscratch := v }
  | .mepc => { f with mepc := v }
  | .mcause => { f with mcause := v }
  | .mtval => { f with mtval := v }
  | .mip => { f with mip := mergeMask mipWriteMask f.mip v }
  | .pmpcfg i => { f with pmpcfg := f.pmpcfg.set i v }
  | .pmpaddr i => { f with pmpaddr := f.pmpaddr.set i v }
  | .mvendorid => f
  | .marchid => f
  | .mimpid => f
  | .mhartid => f
  | .other a => { f with other := Sparse.set f.other a.toNat v }

/-! ## The checked accessors (R44, R45) -/

/-- The checks of R44 pass: the address is valid and the mode is high enough. -/
def csrReadable (c : CsrAddr) (s : State) : Bool := csrValid s.cfg c && !(s.mode.lt (csrMinMode c))

/-- The checks of R45 pass: as for a read, and the address is not read-only. -/
def csrWritable (c : CsrAddr) (s : State) : Bool := csrReadable c s && !(csrReadOnly c)

/-- `CsrGet(c)` (R44); `none` is `raise IllegalInstruction(c)`. -/
def csrGet (c : CsrAddr) (s : State) : Option Word :=
  if csrReadable c s then some (csrReadValue s.cfg s.csr c) else none

/-- `CsrSet(c, v)` (R45); `none` is `raise IllegalInstruction(c)`, with the register unchanged. -/
def csrSet (c : CsrAddr) (v : Word) (s : State) : Option State :=
  if csrWritable c s then some { s with csr := csrWriteValue s.csr c v } else none

end Sys2Proof.Machine
end

