-- ==== Sys2Proof/Machine/Ops.lean ====
section
/-!
DEFINITION. Sys2Proof/Machine/Ops.lean: the named operations every meaning is made of: registers and pc (10_state.md
R30-R35), halting (60_exceptions.md R392), taking a trap (R400-R408), returning from one (45_system.md R367, R368), and
the interrupt sampling at the end of a step (60_exceptions.md R420-R423).
-/

namespace Sys2Proof.Machine

/-- The outcome type of every meaning. -/
abbrev Result := Host.Outcome State Fault Refusal

/-! ## Registers and pc -/

/-- `x[i]`: x0 always reads 0 (R31). -/
def State.readReg (s : State) (r : RegIdx) : Word := if r = 0 then 0#32 else s.regs[r]

/-- `x[i] <- v`: a write to x0 is discarded (R31). -/
def State.writeReg (s : State) (r : RegIdx) (v : Word) : State :=
  if r = 0 then s else { s with regs := s.regs.set r v }

/-- `pc <- t`. -/
def State.setPc (s : State) (t : Word) : State := { s with pc := t }

/-- `pc <- pc + 4`, wrapping (R34). -/
def State.advance (s : State) : State := s.setPc (s.pc + 4#32)

/-- The end of an instruction that writes one register and goes on to the next: `x[rd] <- v ; pc <- pc + 4`. -/
def State.finish (s : State) (rd : RegIdx) (v : Word) : State := (s.writeReg rd v).advance

/-- `halt(reason)` (R392): nothing else changes; pc keeps the address of the halting instruction. -/
def State.halt (s : State) (reason : HaltReason) : State := { s with run := .halted reason }

/-! ## Trap causes (R398, R399) -/

/-- The synchronous exceptions of R397. -/
inductive Exception where
  | illegalInstruction
  | breakpoint
  | environmentCall (m : Mode)
  deriving DecidableEq, Repr

/-- The interrupts of R399. -/
inductive Interrupt where
  | supervisorSoftware
  | machineSoftware
  | supervisorTimer
  | machineTimer
  | supervisorExternal
  | machineExternal
  deriving DecidableEq, Repr

/-- What a trap is taken for. -/
inductive TrapCause where
  | exception (e : Exception)
  | interrupt (i : Interrupt)
  deriving DecidableEq, Repr

/-- Exception codes (R398): 2, 3 and 8 + mode. -/
def Exception.code : Exception → Nat
  | .illegalInstruction => 2
  | .breakpoint => 3
  | .environmentCall m => 8 + m.bits.toNat

/-- Interrupt codes (R399), which are also the bit numbers in `mip` and `mie`. -/
def Interrupt.code : Interrupt → Nat
  | .supervisorSoftware => 1
  | .machineSoftware => 3
  | .supervisorTimer => 5
  | .machineTimer => 7
  | .supervisorExternal => 9
  | .machineExternal => 11

/-- The cause value: bit 31 is 1 for an interrupt, bits 30:0 hold the code (R403). -/
def TrapCause.word : TrapCause → Word
  | .exception e => BitVec.ofNat 32 e.code
  | .interrupt i => 0x80000000#32 ||| BitVec.ofNat 32 i.code

/-- The cause's bit of the delegation register: `medeleg` for exceptions, `mideleg` for interrupts (R401, R411). -/
def delegationBit (c : TrapCause) (s : State) : Bool :=
  match c with
  | .exception e => s.csr.medeleg.getLsbD e.code
  | .interrupt i => s.csr.mideleg.getLsbD i.code

/-! ## Trap entry (R400) -/

/-- `TrapTarget(intr, code)` (R401): S if the cause is delegated (and, without `DELEG_FROM_M`, the hart is in U or S),
else M. -/
def trapTarget (c : TrapCause) (s : State) : Mode :=
  if delegationBit c s && (s.cfg.delegFromM || !(Mode.supervisor.lt s.mode)) then .supervisor else .machine

/-- `mstatus` after trap entry to M: `MPP <- mode`, and with `TRAP_STACKS_IE`, `MPIE <- MIE ; MIE <- 0` (R404). -/
def mstatusTrapM (stackIe : Bool) (mode : Mode) (v : Word) : Word :=
  let v1 := insertBits v 11 mode.bits
  if stackIe then setBit (setBit v1 7 (mstatusMie v1)) 3 false else v1

/-- `mstatus` after trap entry to S: `SPP <- (mode == 0) ? 0 : 1`, and with `TRAP_STACKS_IE`, `SPIE <- SIE ; SIE <- 0`
(R404). -/
def mstatusTrapS (stackIe : Bool) (mode : Mode) (v : Word) : Word :=
  let v1 := setBit v 8 (mode != .user)
  if stackIe then setBit (setBit v1 5 (mstatusSie v1)) 1 false else v1

/-- The base address of a trap vector: `xtvec & ~3`, whatever MODE holds (R405, R408). -/
def trapBase (tvec : Word) : Word := tvec &&& ~~~3#32

/-- The branch of R400 for target M. -/
def enterMachine (c : TrapCause) (epc : Word) (s : State) : State :=
  { s with
    csr := { s.csr with
      mepc := epc
      mstatus := mstatusTrapM s.cfg.trapStacksIe s.mode s.csr.mstatus
      mcause := c.word }
    pc := trapBase s.csr.mtvec
    mode := .machine }

/-- The branch of R400 for target S. -/
def enterSupervisor (c : TrapCause) (epc : Word) (s : State) : State :=
  { s with
    csr := { s.csr with
      sepc := epc
      mstatus := mstatusTrapS s.cfg.trapStacksIe s.mode s.csr.mstatus
      scause := c.word }
    pc := trapBase s.csr.stvec
    mode := .supervisor }

/-- "clear the consumed pending-interrupt bit": `if intr: mip[code] <- 0` (R406). -/
def clearConsumed (c : TrapCause) (s : State) : State :=
  match c with
  | .exception _ => s
  | .interrupt i => { s with csr := { s.csr with mip := setBit s.csr.mip i.code false } }

/-- `TrapEntry(intr, code, epc)` (R400), the one operation every exception and interrupt goes through. -/
def trapEntry (c : TrapCause) (epc : Word) (s : State) : State :=
  clearConsumed c
    (if trapTarget c s = .supervisor then enterSupervisor c epc s else enterMachine c epc s)

/-- `raise`: the instruction has written nothing (R393); its exception is entered with `epc` the instruction's own
address (R390, R402). -/
def raise (e : Exception) (s : State) : Result := .next (trapEntry (.exception e) s.pc s)

/-! ## Trap return (R367, R368) -/

/-- `mstatus` after `mret`: `MIE <- MPIE ; MPIE <- 1 ; MPP <- 0`. -/
def mstatusMret (v : Word) : Word :=
  insertBits (setBit (setBit v 3 (mstatusMpie v)) 7 true) 11 (0#2)

/-- `mstatus` after `sret`: `SIE <- SPIE ; SPIE <- 1 ; SPP <- 0`. -/
def mstatusSret (v : Word) : Word :=
  setBit (setBit (setBit v 1 (mstatusSpie v)) 5 true) 8 false

/-- The return of `mret`: mode from MPP, pc from `mepc` as stored (R367). -/
def returnFromMachine (s : State) : State :=
  { s with
    csr := { s.csr with mstatus := mstatusMret s.csr.mstatus }
    mode := Mode.ofBits (mstatusMpp s.csr.mstatus)
    pc := s.csr.mepc }

/-- The return of `sret`: mode from SPP, pc from `sepc` as stored (R368). -/
def returnFromSupervisor (s : State) : State :=
  { s with
    csr := { s.csr with mstatus := mstatusSret s.csr.mstatus }
    mode := if mstatusSpp s.csr.mstatus then .supervisor else .user
    pc := s.csr.sepc }

/-! ## Interrupts (R420-R423) -/

/-- The level of a PLIC source: the UART's line for `UART_IRQ`, 0 for every other source (R450). -/
def plicLevel (s : State) (src : Nat) : Bool := decide (src = s.cfg.uartIrq) && s.uart.irq

/-- `mip` with the four device-driven bits copied from their levels (R421). -/
def mipWithLevels (mip : Word) (msip mtip seip : Bool) : Word :=
  setBit (setBit (setBit (setBit mip 3 msip) 7 mtip) 9 seip) 11 false

/-- `UpdatePendingFromDevices()` (R421). -/
def updatePending (s : State) : State :=
  let plic := s.plic.gateways s.cfg.plicNSources (plicLevel s)
  { s with
    plic := plic
    csr := { s.csr with
      mip := mipWithLevels s.csr.mip s.clint.msip s.clint.timerLevel (plic.output s.cfg.plicNSources) } }

/-- `GloballyEnabled(code)` (R422). -/
def globallyEnabled (i : Interrupt) (s : State) : Bool :=
  let t := trapTarget (.interrupt i) s
  if s.mode.lt t then true
  else if s.mode = t then (if t = .machine then mstatusMie s.csr.mstatus else mstatusSie s.csr.mstatus)
  else false

/-- `mip[code] == 1 and mie[code] == 1 and GloballyEnabled(code)` (R420). -/
def interruptReady (i : Interrupt) (s : State) : Bool :=
  s.csr.mip.getLsbD i.code && s.csr.mie.getLsbD i.code && globallyEnabled i s

/-- The order in which simultaneous interrupts are considered: 11, 3, 7, 9, 1, 5 (R423). -/
def interruptOrder : List Interrupt :=
  [.machineExternal, .machineSoftware, .machineTimer, .supervisorExternal, .supervisorSoftware, .supervisorTimer]

/-- Take the first ready interrupt, if any, with the next instruction's address as `epc` (R420, R402, R424). -/
def takeInterrupt (s : State) : State :=
  match interruptOrder.find? (fun i => interruptReady i s) with
  | some i => trapEntry (.interrupt i) s.pc s
  | none => s

/-- `SampleInterrupts()` (R420). -/
def sampleInterrupts (s : State) : State := takeInterrupt (updatePending s)

end Sys2Proof.Machine
end

