-- ==== Sys2Proof/Machine/Operands.lean ====
section
/-!
DEFINITION. Sys2Proof/Machine/Operands.lean: every operand form (30_encoding.md R179-R184) as the 32-bit value an
instruction uses, and the effective addresses of 42_loadstore.md R290, 44_atomic.md R331 and 41_control.md R270.
-/

namespace Sys2Proof.Machine

/-- `imm_I` and `imm_S`: the 12-bit immediate, sign-extended (R179, R180). -/
def imm12 (imm : BitVec 12) : Word := imm.signExtend 32

/-- `imm_U = {w[31:12], 0x000}` (R182). -/
def immUpper (imm : BitVec 20) : Word := imm ++ 0#12

/-- `imm_B`: the 13-bit offset, sign-extended (R181). -/
def branchOffset (off : BitVec 13) : Word := off.signExtend 32

/-- `imm_J`: the 21-bit offset, sign-extended (R183). -/
def jumpOffset (off : BitVec 21) : Word := off.signExtend 32

/-- `zimm`, zero-extended (R184). -/
def zimm32 (z : BitVec 5) : Word := z.setWidth 32

/-- The shift amount of a register form: `x[rs2][4:0]` (R221). -/
def shiftAmount (v : Word) : BitVec 5 := v.extractLsb' 0 5

/-- The effective address of a load or a store: `x[rs1] + imm`, wrapping (R290). -/
def effectiveAddress (rs1 : RegIdx) (imm : BitVec 12) (s : State) : Word := s.readReg rs1 + imm12 imm

/-- The effective address of an atomic: `x[rs1]`, no displacement (R331, R333). -/
def atomicAddress (rs1 : RegIdx) (s : State) : Word := s.readReg rs1

/-- The target of a branch: `pc + imm_B` (R270, R276). At an odd pc the sum is odd: the model's choice against R271's
"always even" (log 22, DESIGN CHOICE). -/
def branchTarget (off : BitVec 13) (s : State) : Word := s.pc + branchOffset off

/-- The target of `jal`: `pc + imm_J` (R270, R274). At an odd pc the sum is odd: the model's choice against R271's
"always even" (log 22, DESIGN CHOICE). -/
def jumpTarget (off : BitVec 21) (s : State) : Word := s.pc + jumpOffset off

/-- The target of `jalr`: `x[rs1] + imm_I`, bit 0 kept (R275). -/
def jumpRegisterTarget (rs1 : RegIdx) (imm : BitVec 12) (s : State) : Word := s.readReg rs1 + imm12 imm

/-- The link value `pc + 4` (R272). -/
def linkValue (s : State) : Word := s.pc + 4#32

end Sys2Proof.Machine
end

