-- ==== Sys2Proof/Machine/Atomic.lean ====
section
/-!
DEFINITION. Sys2Proof/Machine/Atomic.lean: 44_atomic.md R330-R343. Only `lr.w` sets the reservation and only `sc.w`
clears it (R330). No atomic raises an exception; a misaligned address is accessed as bytes.
-/

namespace Sys2Proof.Machine

/-- `scSucceeds(ea) = resv == 1 and (not SC_ADDRESS_CHECK or resv_addr == ea)` (R330). -/
def scSucceeds (ea : Word) (s : State) : Bool := s.resv && (!s.cfg.scAddressCheck || s.resvAddr == ea)

/-- `resv <- 1 ; if SC_ADDRESS_CHECK: resv_addr <- ea` (R331). -/
def State.reserve (s : State) (ea : Word) : State :=
  { s with resv := true, resvAddr := if s.cfg.scAddressCheck then ea else s.resvAddr }

/-- `resv <- 0` (R332). -/
def State.clearReservation (s : State) : State := { s with resv := false }

/-- The AMO template (R333): read the word, write `op old src` back, return the old word in rd. -/
def amo (op : Word → Word → Word) (rd rs1 rs2 : RegIdx) (s : State) : Result :=
  let ea := atomicAddress rs1 s
  let src := s.readReg rs2
  let r := memRead 4 ea s
  .next ((memWrite 4 ea (op r.1 src) r.2).finish rd r.1)

/-- R331. -/
def execLrW (rd rs1 : RegIdx) (s : State) : Result :=
  let ea := atomicAddress rs1 s
  let r := memRead 4 ea s
  .next ((r.2.reserve ea).finish rd r.1)

/-- R332: any `sc.w` clears the reservation; a failing one performs no bus access. -/
def execScW (rd rs1 rs2 : RegIdx) (s : State) : Result :=
  let ea := atomicAddress rs1 s
  let src := s.readReg rs2
  let s1 := s.clearReservation
  if scSucceeds ea s then .next ((memWrite 4 ea src s1).finish rd 0#32) else .next (s1.finish rd 1#32)

/-- R334. -/
def execAmoswapW (rd rs1 rs2 : RegIdx) (s : State) : Result := amo (fun _ src => src) rd rs1 rs2 s

/-- R335. -/
def execAmoaddW (rd rs1 rs2 : RegIdx) (s : State) : Result := amo (fun old src => old + src) rd rs1 rs2 s

/-- R336. -/
def execAmoxorW (rd rs1 rs2 : RegIdx) (s : State) : Result := amo (fun old src => old ^^^ src) rd rs1 rs2 s

/-- R337. -/
def execAmoandW (rd rs1 rs2 : RegIdx) (s : State) : Result := amo (fun old src => old &&& src) rd rs1 rs2 s

/-- R338. -/
def execAmoorW (rd rs1 rs2 : RegIdx) (s : State) : Result := amo (fun old src => old ||| src) rd rs1 rs2 s

/-- R339: `(s32(old) <= s32(src)) ? old : src`. -/
def execAmominW (rd rs1 rs2 : RegIdx) (s : State) : Result :=
  amo (fun old src => if lessSigned src old then src else old) rd rs1 rs2 s

/-- R340: `(s32(old) >= s32(src)) ? old : src`. -/
def execAmomaxW (rd rs1 rs2 : RegIdx) (s : State) : Result :=
  amo (fun old src => if lessSigned old src then src else old) rd rs1 rs2 s

/-- R341: `(u(old) <= u(src)) ? old : src`. -/
def execAmominuW (rd rs1 rs2 : RegIdx) (s : State) : Result :=
  amo (fun old src => if lessUnsigned src old then src else old) rd rs1 rs2 s

/-- R342: `(u(old) >= u(src)) ? old : src`. -/
def execAmomaxuW (rd rs1 rs2 : RegIdx) (s : State) : Result :=
  amo (fun old src => if lessUnsigned old src then src else old) rd rs1 rs2 s

end Sys2Proof.Machine
end

