-- ==== Sys2Proof/Machine/Control.lean ====
section
/-!
DEFINITION. Sys2Proof/Machine/Control.lean: 41_control.md R270-R282. No target is checked for alignment and no control
transfer raises an exception (R271); there are no delay slots (R272).
-/

namespace Sys2Proof.Machine

/-- The branch template (R276): `if cond: pc <- pc + imm_B else pc <- pc + 4`. -/
def branchIf (cond : Word → Word → Bool) (rs1 rs2 : RegIdx) (off : BitVec 13) (s : State) : Result :=
  .next (if cond (s.readReg rs1) (s.readReg rs2) then s.setPc (branchTarget off s) else s.advance)

/-- R274. -/
def execJal (rd : RegIdx) (off : BitVec 21) (s : State) : Result :=
  .next ((s.writeReg rd (linkValue s)).setPc (jumpTarget off s))

/-- R275: rs1 is captured before rd is written, and bit 0 of the target is not cleared. -/
def execJalr (rd rs1 : RegIdx) (imm : BitVec 12) (s : State) : Result :=
  .next ((s.writeReg rd (linkValue s)).setPc (jumpRegisterTarget rs1 imm s))

/-- R277. -/
def execBeq (rs1 rs2 : RegIdx) (off : BitVec 13) (s : State) : Result := branchIf equalWords rs1 rs2 off s

/-- R278. -/
def execBne (rs1 rs2 : RegIdx) (off : BitVec 13) (s : State) : Result :=
  branchIf (fun a b => !equalWords a b) rs1 rs2 off s

/-- R279. -/
def execBlt (rs1 rs2 : RegIdx) (off : BitVec 13) (s : State) : Result := branchIf lessSigned rs1 rs2 off s

/-- R280. -/
def execBge (rs1 rs2 : RegIdx) (off : BitVec 13) (s : State) : Result :=
  branchIf (fun a b => !lessSigned a b) rs1 rs2 off s

/-- R281. -/
def execBltu (rs1 rs2 : RegIdx) (off : BitVec 13) (s : State) : Result := branchIf lessUnsigned rs1 rs2 off s

/-- R282. -/
def execBgeu (rs1 rs2 : RegIdx) (off : BitVec 13) (s : State) : Result :=
  branchIf (fun a b => !lessUnsigned a b) rs1 rs2 off s

end Sys2Proof.Machine
end

