-- ==== Sys2Proof/Machine/Integer.lean ====
section
/-!
DEFINITION. Sys2Proof/Machine/Integer.lean: 40_integer.md R220-R244. Every instruction reads its sources, writes rd
and goes to `pc + 4`; none raises an exception (R223).
-/

namespace Sys2Proof.Machine

/-! ## Shared forms -/

/-- `x[rd] <- f x[rs1] x[rs2] ; pc <- pc + 4`; the sources are read before rd is written (R223, R310). -/
def regReg (f : Word → Word → Word) (rd rs1 rs2 : RegIdx) (s : State) : Result :=
  .next (s.finish rd (f (s.readReg rs1) (s.readReg rs2)))

/-- `x[rd] <- f x[rs1] imm_I ; pc <- pc + 4`. -/
def regImm (f : Word → Word → Word) (rd rs1 : RegIdx) (imm : BitVec 12) (s : State) : Result :=
  .next (s.finish rd (f (s.readReg rs1) (imm12 imm)))

/-- `x[rd] <- f x[rs1] shamt ; pc <- pc + 4` (R221). -/
def regShamt (f : Word → BitVec 5 → Word) (rd rs1 : RegIdx) (shamt : BitVec 5) (s : State) : Result :=
  .next (s.finish rd (f (s.readReg rs1) shamt))

/-! ## Shifts and comparisons (R221, R222) -/

/-- `v << n`. -/
def shiftLeft (v : Word) (n : BitVec 5) : Word := v <<< n.toNat

/-- `v >>u n`: zero-fill. -/
def shiftRightLogical (v : Word) (n : BitVec 5) : Word := v >>> n.toNat

/-- `v >>s n`: fill with copies of bit 31. -/
def shiftRightArith (v : Word) (n : BitVec 5) : Word := v.sshiftRight n.toNat

/-! ## Upper-immediate instructions -/

/-- R224. -/
def execLui (rd : RegIdx) (imm : BitVec 20) (s : State) : Result := .next (s.finish rd (immUpper imm))

/-- R225: `pc` is the address of the `auipc` itself. -/
def execAuipc (rd : RegIdx) (imm : BitVec 20) (s : State) : Result := .next (s.finish rd (s.pc + immUpper imm))

/-! ## Register-immediate instructions -/

/-- R226. -/
def execAddi (rd rs1 : RegIdx) (imm : BitVec 12) (s : State) : Result := regImm (fun a b => a + b) rd rs1 imm s

/-- R227. -/
def execSlti (rd rs1 : RegIdx) (imm : BitVec 12) (s : State) : Result :=
  regImm (fun a b => boolWord (lessSigned a b)) rd rs1 imm s

/-- R228: against the sign-extended immediate, read as unsigned (R222). -/
def execSltiu (rd rs1 : RegIdx) (imm : BitVec 12) (s : State) : Result :=
  regImm (fun a b => boolWord (lessUnsigned a b)) rd rs1 imm s

/-- R229. -/
def execXori (rd rs1 : RegIdx) (imm : BitVec 12) (s : State) : Result := regImm (fun a b => a ^^^ b) rd rs1 imm s

/-- R230. -/
def execOri (rd rs1 : RegIdx) (imm : BitVec 12) (s : State) : Result := regImm (fun a b => a ||| b) rd rs1 imm s

/-- R231. -/
def execAndi (rd rs1 : RegIdx) (imm : BitVec 12) (s : State) : Result := regImm (fun a b => a &&& b) rd rs1 imm s

/-- R232. -/
def execSlli (rd rs1 : RegIdx) (shamt : BitVec 5) (s : State) : Result := regShamt shiftLeft rd rs1 shamt s

/-- R233. -/
def execSrli (rd rs1 : RegIdx) (shamt : BitVec 5) (s : State) : Result := regShamt shiftRightLogical rd rs1 shamt s

/-- R234. -/
def execSrai (rd rs1 : RegIdx) (shamt : BitVec 5) (s : State) : Result := regShamt shiftRightArith rd rs1 shamt s

/-! ## Register-register instructions -/

/-- R235. -/
def execAdd (rd rs1 rs2 : RegIdx) (s : State) : Result := regReg (fun a b => a + b) rd rs1 rs2 s

/-- R236. -/
def execSub (rd rs1 rs2 : RegIdx) (s : State) : Result := regReg (fun a b => a - b) rd rs1 rs2 s

/-- R237. -/
def execSll (rd rs1 rs2 : RegIdx) (s : State) : Result :=
  regReg (fun a b => shiftLeft a (shiftAmount b)) rd rs1 rs2 s

/-- R238. -/
def execSlt (rd rs1 rs2 : RegIdx) (s : State) : Result :=
  regReg (fun a b => boolWord (lessSigned a b)) rd rs1 rs2 s

/-- R239. -/
def execSltu (rd rs1 rs2 : RegIdx) (s : State) : Result :=
  regReg (fun a b => boolWord (lessUnsigned a b)) rd rs1 rs2 s

/-- R240. -/
def execXor (rd rs1 rs2 : RegIdx) (s : State) : Result := regReg (fun a b => a ^^^ b) rd rs1 rs2 s

/-- R241. -/
def execSrl (rd rs1 rs2 : RegIdx) (s : State) : Result :=
  regReg (fun a b => shiftRightLogical a (shiftAmount b)) rd rs1 rs2 s

/-- R242. -/
def execSra (rd rs1 rs2 : RegIdx) (s : State) : Result :=
  regReg (fun a b => shiftRightArith a (shiftAmount b)) rd rs1 rs2 s

/-- R243. -/
def execOr (rd rs1 rs2 : RegIdx) (s : State) : Result := regReg (fun a b => a ||| b) rd rs1 rs2 s

/-- R244. -/
def execAnd (rd rs1 rs2 : RegIdx) (s : State) : Result := regReg (fun a b => a &&& b) rd rs1 rs2 s

end Sys2Proof.Machine
end

