-- ==== Sys2Proof/Machine/LoadStore.lean ====
section
/-!
DEFINITION. Sys2Proof/Machine/LoadStore.lean: 42_loadstore.md R290-R303. Loads and stores raise no exception (R291);
a load with rd = x0 still performs its reads and their side effects.
-/

namespace Sys2Proof.Machine

/-- A load of `n` bytes at the effective address: read through the bus, extend, write rd, go on (R290, R293). -/
def loadWith (n : Nat) (ext : Word → Word) (rd rs1 : RegIdx) (imm : BitVec 12) (s : State) : Result :=
  let r := memRead n (effectiveAddress rs1 imm s) s
  .next (r.2.finish rd (ext r.1))

/-- A store of the `n` low bytes of rs2 at the effective address (R290, R292). -/
def storeBytes (n : Nat) (rs1 rs2 : RegIdx) (imm : BitVec 12) (s : State) : Result :=
  .next (memWrite n (effectiveAddress rs1 imm s) (s.readReg rs2) s).advance

/-- `sext_8` of the low byte (R292). -/
def signExtend8 (v : Word) : Word := (v.setWidth 8).signExtend 32

/-- `sext_16` of the low half (R292). -/
def signExtend16 (v : Word) : Word := (v.setWidth 16).signExtend 32

/-- `zext_8` of the low byte (R292). -/
def zeroExtend8 (v : Word) : Word := (v.setWidth 8).setWidth 32

/-- `zext_16` of the low half (R292). -/
def zeroExtend16 (v : Word) : Word := (v.setWidth 16).setWidth 32

/-- R294. -/
def execLb (rd rs1 : RegIdx) (imm : BitVec 12) (s : State) : Result := loadWith 1 signExtend8 rd rs1 imm s

/-- R295. -/
def execLh (rd rs1 : RegIdx) (imm : BitVec 12) (s : State) : Result := loadWith 2 signExtend16 rd rs1 imm s

/-- R296. -/
def execLw (rd rs1 : RegIdx) (imm : BitVec 12) (s : State) : Result := loadWith 4 (fun v => v) rd rs1 imm s

/-- R297. -/
def execLbu (rd rs1 : RegIdx) (imm : BitVec 12) (s : State) : Result := loadWith 1 zeroExtend8 rd rs1 imm s

/-- R298. -/
def execLhu (rd rs1 : RegIdx) (imm : BitVec 12) (s : State) : Result := loadWith 2 zeroExtend16 rd rs1 imm s

/-- R299. -/
def execSb (rs1 rs2 : RegIdx) (imm : BitVec 12) (s : State) : Result := storeBytes 1 rs1 rs2 imm s

/-- R300. -/
def execSh (rs1 rs2 : RegIdx) (imm : BitVec 12) (s : State) : Result := storeBytes 2 rs1 rs2 imm s

/-- R301. -/
def execSw (rs1 rs2 : RegIdx) (imm : BitVec 12) (s : State) : Result := storeBytes 4 rs1 rs2 imm s

/-- R302: "no-ops in this single-hart, non-pipelined model; only PC advances". -/
def execFence (s : State) : Result := .next s.advance

/-- R303. -/
def execFenceI (s : State) : Result := .next s.advance

end Sys2Proof.Machine
end

