-- ==== Sys2Proof/Machine/MulDiv.lean ====
section
/-!
DEFINITION. Sys2Proof/Machine/MulDiv.lean: 43_muldiv.md R310-R319. Products, quotients and remainders are computed
exactly as integers and then cut to 32 bits (R310). No division traps (R311).
-/

namespace Sys2Proof.Machine

/-- Bits 31:0 of an exact integer. -/
def lowWord (i : Int) : Word := BitVec.ofInt 32 i

/-- Bits 63:32 of an exact integer: an arithmetic shift right by 32, cut to 32 bits (R313). -/
def highWord (i : Int) : Word := BitVec.ofInt 32 (i / 2 ^ 32)

/-- The quotient of R316: -1 for divisor 0, -2^31 for the overflow case, else rounded toward zero. -/
def signedQuotient (a b : Int) : Int :=
  if b = 0 then -1 else if a = -2 ^ 31 ∧ b = -1 then -2 ^ 31 else a.tdiv b

/-- The remainder of R318: the dividend for divisor 0, 0 for the overflow case, else with the sign of the dividend. -/
def signedRemainder (a b : Int) : Int :=
  if b = 0 then a else if a = -2 ^ 31 ∧ b = -1 then 0 else a - b * a.tdiv b

/-- The quotient of R317: 2^32 - 1 for divisor 0, else rounded down. -/
def unsignedQuotient (a b : Nat) : Nat := if b = 0 then 2 ^ 32 - 1 else a / b

/-- The remainder of R319: the dividend for divisor 0. -/
def unsignedRemainder (a b : Nat) : Nat := if b = 0 then a else a % b

/-- R312. -/
def execMul (rd rs1 rs2 : RegIdx) (s : State) : Result :=
  regReg (fun a b => lowWord (a.toInt * b.toInt)) rd rs1 rs2 s

/-- R313: signed times signed. -/
def execMulh (rd rs1 rs2 : RegIdx) (s : State) : Result :=
  regReg (fun a b => highWord (a.toInt * b.toInt)) rd rs1 rs2 s

/-- R314: signed rs1 times unsigned rs2. -/
def execMulhsu (rd rs1 rs2 : RegIdx) (s : State) : Result :=
  regReg (fun a b => highWord (a.toInt * (b.toNat : Int))) rd rs1 rs2 s

/-- R315: unsigned times unsigned. -/
def execMulhu (rd rs1 rs2 : RegIdx) (s : State) : Result :=
  regReg (fun a b => highWord ((a.toNat : Int) * (b.toNat : Int))) rd rs1 rs2 s

/-- R316. -/
def execDiv (rd rs1 rs2 : RegIdx) (s : State) : Result :=
  regReg (fun a b => lowWord (signedQuotient a.toInt b.toInt)) rd rs1 rs2 s

/-- R317. -/
def execDivu (rd rs1 rs2 : RegIdx) (s : State) : Result :=
  regReg (fun a b => BitVec.ofNat 32 (unsignedQuotient a.toNat b.toNat)) rd rs1 rs2 s

/-- R318. -/
def execRem (rd rs1 rs2 : RegIdx) (s : State) : Result :=
  regReg (fun a b => lowWord (signedRemainder a.toInt b.toInt)) rd rs1 rs2 s

/-- R319. -/
def execRemu (rd rs1 rs2 : RegIdx) (s : State) : Result :=
  regReg (fun a b => BitVec.ofNat 32 (unsignedRemainder a.toNat b.toNat)) rd rs1 rs2 s

end Sys2Proof.Machine
end

