-- ==== Sys2Proof/Machine/System.lean ====
section
/-!
DEFINITION. Sys2Proof/Machine/System.lean: 45_system.md R350-R370: the six CSR forms, `ecall`, `ebreak`, `mret`, `sret`
and `wfi`.
-/

namespace Sys2Proof.Machine

/-! ## CSR access (R350) -/

/-- The read-then-write of R350. `new old` is the value to write, or `none` where the form writes nothing. The read and
its checks always run; where a check fails, IllegalInstruction is taken and neither rd nor the CSR changes. -/
def csrAccess (rd : RegIdx) (csr : CsrAddr) (new : Word → Option Word) (s : State) : Result :=
  match csrGet csr s with
  | none => raise .illegalInstruction s
  | some old =>
    match new old with
    | none => .next (s.finish rd old)
    | some v =>
      match csrSet csr v s with
      | none => raise .illegalInstruction s
      | some s1 => .next (s1.finish rd old)

/-- `CSR_REG_SETCLR_X0_WRITES or rs1 != 0` (R352, R353). -/
def setClrWrites (rs1 : RegIdx) (s : State) : Bool := s.cfg.csrRegSetClrX0Writes || decide (rs1 ≠ 0)

/-- R351: always writes. -/
def execCsrrw (rd : RegIdx) (csr : CsrAddr) (rs1 : RegIdx) (s : State) : Result :=
  csrAccess rd csr (fun _ => some (s.readReg rs1)) s

/-- R352: `old | src`. -/
def execCsrrs (rd : RegIdx) (csr : CsrAddr) (rs1 : RegIdx) (s : State) : Result :=
  csrAccess rd csr (fun old => if setClrWrites rs1 s then some (old ||| s.readReg rs1) else none) s

/-- R353: `old & ~src`. -/
def execCsrrc (rd : RegIdx) (csr : CsrAddr) (rs1 : RegIdx) (s : State) : Result :=
  csrAccess rd csr (fun old => if setClrWrites rs1 s then some (old &&& ~~~(s.readReg rs1)) else none) s

/-- R354: always writes, zimm = 0 included. -/
def execCsrrwi (rd : RegIdx) (csr : CsrAddr) (zimm : BitVec 5) (s : State) : Result :=
  csrAccess rd csr (fun _ => some (zimm32 zimm)) s

/-- R355: writes only when zimm is not 0. -/
def execCsrrsi (rd : RegIdx) (csr : CsrAddr) (zimm : BitVec 5) (s : State) : Result :=
  csrAccess rd csr (fun old => if zimm ≠ 0#5 then some (old ||| zimm32 zimm) else none) s

/-- R356: writes only when zimm is not 0. -/
def execCsrrci (rd : RegIdx) (csr : CsrAddr) (zimm : BitVec 5) (s : State) : Result :=
  csrAccess rd csr (fun old => if zimm ≠ 0#5 then some (old &&& ~~~(zimm32 zimm)) else none) s

/-! ## Environment call and breakpoint -/

/-- `SelfTestExit()`'s halt reason (R364): pass when a0 (x10) is 0 or 42. -/
def selfTestReason (s : State) : HaltReason :=
  let a0 := s.readReg 10
  if a0 = 0#32 ∨ a0 = 42#32 then .selfTestPass a0 else .selfTestFail a0 (s.readReg s.cfg.selftestDiagReg)

/-- R362: self-test exit, or the environment-call exception of the current mode, or a no-op, by parameter. -/
def execEcall (s : State) : Result :=
  if s.cfg.selfTest then .next (s.halt (selfTestReason s))
  else if s.cfg.ecallTraps then raise (.environmentCall s.mode) s
  else .next s.advance

/-- R366: by `EBREAK_MODE`. -/
def execEbreak (s : State) : Result :=
  match s.cfg.ebreakMode with
  | .nop => .next s.advance
  | .breakpoint => raise .breakpoint s
  | .halt => .next (s.halt .ebreakHalt)

/-! ## Trap return and wait -/

/-- R367: illegal below M when `XRET_PRIV_CHECK`. -/
def execMret (s : State) : Result :=
  if s.cfg.xretPrivCheck && s.mode.lt .machine then raise .illegalInstruction s
  else .next (returnFromMachine s)

/-- R368: illegal in U when `XRET_PRIV_CHECK`. -/
def execSret (s : State) : Result :=
  if s.cfg.xretPrivCheck && s.mode.lt .supervisor then raise .illegalInstruction s
  else .next (returnFromSupervisor s)

/-- R370: update `mip` from the devices, then go on if any bit of it is set, else stay at the `wfi`. -/
def execWfi (s : State) : Result :=
  let s1 := updatePending s
  .next (if s1.csr.mip ≠ 0#32 then s1.advance else s1)

end Sys2Proof.Machine
end

