-- ==== Sys2Proof/Machine/Engine.lean ====
section
/-!
DEFINITION. Sys2Proof/Machine/Engine.lean: the step of a running engine (60_exceptions.md R390) and its parts around `exec`: the time source
before it (R441), the fetch (20_memory.md R105), the halt on a word that does not decode (30_encoding.md R195), and the
interrupt sampling after it (R420); and the placing of one instruction where the next step fetches it.
-/

namespace Sys2Proof.Machine

/-- `TimeStep(delta)` with the time source's next answer (R441), a free one when none is listed (log 3). -/
def timeStep (s : State) : State :=
  let d := s.timeSource.ask Config.freeTime
  { s with clint := s.clint.advance d.1, timeSource := d.2 }

/-- `w := MemRead(pc, 4)` (R105): the word, and the state after the fetch's side effects. -/
def fetch (s : State) : Word × State := memRead 4 s.pc s

/-- The halt reason of a word the decoder refuses (R195). A fetched word has all its four bytes, so the decoder's
`truncated` does not occur here; it is mapped like a word with no mapping. -/
def haltReasonOf (w : Word) : DecodeRefusal → HaltReason
  | .zeroWord => .zeroWord
  | .noMapping w' => .decodeError w'
  | .truncated => .decodeError w

/-- The end of a step: sample the interrupts, unless the instruction halted the engine (R390, R392). -/
def endStep (s : State) : State :=
  match s.run with
  | .running => sampleInterrupts s
  | .halted _ => s

/-- `f` applied to a next state; a fault or a refusal stays what it is. -/
def mapNext (f : State → State) : Result → Result
  | .next s => .next (f s)
  | .fault r => .fault r
  | .refused r => .refused r

/-- `Step()` (R390) of a running engine, without the time source. `exec` has already entered the exception an
instruction raised (log 14). -/
def engineStep (s : State) : Result :=
  let f := fetch s
  match decodeWord f.1 with
  | .error e => .next (f.2.halt (haltReasonOf f.1 e))
  | .ok i => mapNext endStep (exec i f.2)

/-- The four bytes of `w` stored at `a` to `a + 3` in RAM, least significant first (R106). -/
def storeWordInRam (a w : Word) (m : Memory) : Memory :=
  (((m.write a (byteOf w 0)).write (a + 1#32) (byteOf w 1)).write (a + 2#32) (byteOf w 2)).write (a + 3#32) (byteOf w 3)

/-- The state with instruction word `w` in RAM at pc and the engine running, so that the next step fetches and runs it
where pc to pc + 3 lie in RAM (log 11). -/
def placeInstruction (w : Word) (s : State) : State :=
  { s with mem := storeWordInRam s.pc w s.mem, run := .running }

end Sys2Proof.Machine
end

