-- ==== Sys2Proof/Machine/Step.lean ====
section
/-!
DEFINITION. Sys2Proof/Machine/Step.lean: one step of the engine (60_exceptions.md R390), preceded by the time source's
action (R441; log 3), and the host's way of placing one instruction. What a step is made of is in
Sys2Proof/Machine/Engine.lean, where `engineStep` puts it together.
-/

namespace Sys2Proof.Machine

/-- One step: a halted engine takes none and nothing changes (R392; log 5); otherwise time passes (R441) and the engine
runs `Step()`. -/
def step (s : State) : Host.Outcome State Fault Refusal :=
  match s.run with
  | .halted _ => .next s
  | .running => engineStep (timeStep s)

/-- `s` with the instruction whose bits are `w` (numbered as spec/opcode_table.json numbers them; the bits from `nbits`
up are 0) stored where `step` fetches its next instruction (log 11). -/
def State.withFetchWord (s : State) (nbits w : Nat) : State :=
  placeInstruction (BitVec.ofNat 32 (w % 2 ^ nbits)) s

end Sys2Proof.Machine
end

