-- ==== Sys2Proof/Safety.lean ====
section
/-!
DEFINITION. Sys2Proof/Safety.lean: the terms claims are stated in: what a step of this machine may answer, the
invariant every step keeps, what an instruction leaves unchanged, and the loops of 20_memory.md R103 and R104 written
out a second time, so that a claim about a load or a store does not rest on the model's own recursion.

A run of this machine is safe when every step of it answers a next state (60_exceptions.md R390-R392: the engine either
goes on or halts, and halting is a state).
-/

namespace Sys2Proof.Machine

/-! ## Frames -/

/-- Everything but the general registers and pc is the same in `s` and `t`. -/
structure SameBeyondRegs (s t : State) : Prop where
  cfg : t.cfg = s.cfg
  mode : t.mode = s.mode
  run : t.run = s.run
  csr : t.csr = s.csr
  resv : t.resv = s.resv
  resvAddr : t.resvAddr = s.resvAddr
  mem : t.mem = s.mem
  uart : t.uart = s.uart
  clint : t.clint = s.clint
  plic : t.plic = s.plic
  fb : t.fb = s.fb
  timeSource : t.timeSource = s.timeSource

/-- The general registers of `t` are those of `s`, but for `v` in `rd`; a write to x0 writes nothing (R31). -/
def RegWrite (rd : RegIdx) (v : Word) (s t : State) : Prop :=
  ∀ r : RegIdx, t.readReg r = if r = rd ∧ rd ≠ 0 then v else s.readReg r

/-- The general registers of `t` are those of `s`. -/
def RegsKept (s t : State) : Prop := ∀ r : RegIdx, t.readReg r = s.readReg r

/-- `i` at `s` completes: it puts `v` into `rd` and goes to `pc + 4`, and nothing else changes. -/
def WritesRd (i : Instr) (rd : RegIdx) (v : Word) (s : State) : Prop :=
  ∃ t, exec i s = .next t ∧ RegWrite rd v s t ∧ t.pc = s.pc + 4#32 ∧ SameBeyondRegs s t

/-- `i` at `s` completes: only pc changes, to `target`. -/
def SetsPcOnly (i : Instr) (target : Word) (s : State) : Prop := exec i s = .next { s with pc := target }

/-- `i` at `s` takes exception `e` with everything as it was (R393): the entry of R400 on `s` itself. -/
def Takes (i : Instr) (e : Exception) (s : State) : Prop :=
  exec i s = .next (trapEntry (.exception e) s.pc s)

/-! ## The access loops of R103 and R104 -/

/-- `MemRead(a, n)`'s bytes, lowest address first, and the state after the reads' side effects (R103). -/
def readBytes (n : Nat) (a : Word) (s : State) : List Byte × State :=
  (List.range n).foldl
    (fun acc i =>
      let r := busReadByte (a + BitVec.ofNat 32 i) acc.2
      (acc.1 ++ [r.1], r.2))
    ([], s)

/-- The value of bytes in little-endian order (R103, R106). -/
def leNat : List Byte → Nat
  | [] => 0
  | b :: bs => b.toNat + 256 * leNat bs

/-- `MemWrite(a, n, v)` (R104): `for i in 0 .. n-1: BusWriteByte(a + i, v[8*i+7 : 8*i])`. -/
def writeBytes (n : Nat) (a v : Word) (s : State) : State :=
  (List.range n).foldl (fun s i => busWriteByte (a + BitVec.ofNat 32 i) (v.extractLsb' (8 * i) 8) s) s

/-- A load's result: rd receives `ext` of the `n` bytes at `ea`, read in ascending order; what else changes is what the
reads change (R111). -/
def LoadResult (i : Instr) (n : Nat) (rd : RegIdx) (ea : Word) (ext : Nat → Word) (s : State) : Prop :=
  let r := readBytes n ea s
  ∃ t, exec i s = .next t ∧ RegWrite rd (ext (leNat r.1)) s t ∧ t.pc = s.pc + 4#32 ∧ SameBeyondRegs r.2 t

/-- A store's result: the `n` low bytes of `v` written in ascending order at `ea`; no register changes. -/
def StoreResult (i : Instr) (n : Nat) (ea v : Word) (s : State) : Prop :=
  ∃ t, exec i s = .next t ∧ RegsKept s t ∧ t.pc = s.pc + 4#32 ∧ SameBeyondRegs (writeBytes n ea v s) t

/-- An AMO's result (R333): read the word, write `op old src` back, old word in rd. -/
def AmoResult (i : Instr) (rd : RegIdx) (ea src : Word) (op : Word → Word → Word) (s : State) : Prop :=
  let r := readBytes 4 ea s
  let old := BitVec.ofNat 32 (leNat r.1)
  ∃ t, exec i s = .next t ∧ RegWrite rd old s t ∧ t.pc = s.pc + 4#32
    ∧ SameBeyondRegs (writeBytes 4 ea (op old src) r.2) t

/-- Every byte of the access lies in RAM (R101). -/
def InRam (c : Config) (a : Word) (n : Nat) : Prop := ∀ x ∈ accessBytes a n, route c x = .ram

/-- No byte of the access lies in the UART's or the PLIC's window, whose reads have side effects (R111). -/
def NoReadSideEffect (c : Config) (a : Word) (n : Nat) : Prop :=
  ∀ x ∈ accessBytes a n, ∀ o, route c x ≠ .uart o ∧ route c x ≠ .plic o

/-! ## CSR writes -/

/-- A CSR form's result when every check passes (R350): old value in rd, the file as `f`, pc + 4, nothing else. -/
def CsrResult (i : Instr) (rd : RegIdx) (old : Word) (f : CsrFile) (s : State) : Prop :=
  ∃ t, exec i s = .next t ∧ RegWrite rd old s t ∧ t.pc = s.pc + 4#32 ∧ SameBeyondRegs { s with csr := f } t

/-- Two CSR addresses that show the same storage: an address and itself, and a register with its view (R49, R54). -/
def sharesStorage (a b : CsrReg) : Bool :=
  decide (a = b)
    || [(.mstatus, .sstatus), (.sstatus, .mstatus), (.mie, .sie), (.sie, .mie), (.mip, .sip), (.sip, .mip)].contains
        ((a, b) : CsrReg × CsrReg)

/-- The raw CSRs of R41's table: 32 bits of storage, written as given (R40). -/
def csrIsRaw : CsrReg → Bool
  | .stvec | .scounteren | .sscratch | .sepc | .scause | .stval | .satp => true
  | .medeleg | .mideleg | .mie | .mtvec | .mcounteren | .mscratch | .mepc | .mcause | .mtval => true
  | .pmpcfg _ | .pmpaddr _ => true
  | .sstatus | .sie | .sip | .mstatus | .misa | .mip => false
  | .mvendorid | .marchid | .mimpid | .mhartid => false
  | .other _ => false

/-! ## Kinds of instruction -/

/-- The instructions that write memory: stores, `sc.w` and the AMOs (20_memory.md R109). -/
def writesMemory : Instr → Bool
  | .sb _ _ _ | .sh _ _ _ | .sw _ _ _ | .scW _ _ _ => true
  | .amoswapW _ _ _ | .amoaddW _ _ _ | .amoxorW _ _ _ | .amoandW _ _ _ | .amoorW _ _ _ => true
  | .amominW _ _ _ | .amomaxW _ _ _ | .amominuW _ _ _ | .amomaxuW _ _ _ => true
  | _ => false

/-- `lr.w` and `sc.w`, the only instructions that touch the reservation (R330). -/
def touchesReservation : Instr → Bool
  | .lrW _ _ | .scW _ _ _ => true
  | _ => false

/-- `mret` and `sret` (R391, R410). -/
def isTrapReturn : Instr → Bool
  | .mret | .sret => true
  | _ => false

/-- The instructions that can change a CSR: the CSR forms, and those that trap, return or update `mip` (R350, R362,
R366-R368, R370). -/
def touchesCsrs : Instr → Bool
  | .csrrw _ _ _ | .csrrs _ _ _ | .csrrc _ _ _ | .csrrwi _ _ _ | .csrrsi _ _ _ | .csrrci _ _ _ => true
  | .ecall | .ebreak | .mret | .sret | .wfi => true
  | _ => false

/-- The destination register of an instruction; branches, stores, fences and the instructions of 45_system.md R360 have
none. -/
def destination : Instr → Option RegIdx
  | .lui rd _ | .auipc rd _ | .jal rd _ | .jalr rd _ _ => some rd
  | .addi rd _ _ | .slti rd _ _ | .sltiu rd _ _ | .xori rd _ _ | .ori rd _ _ | .andi rd _ _ => some rd
  | .slli rd _ _ | .srli rd _ _ | .srai rd _ _ => some rd
  | .add rd _ _ | .sub rd _ _ | .sll rd _ _ | .slt rd _ _ | .sltu rd _ _ => some rd
  | .xor rd _ _ | .srl rd _ _ | .sra rd _ _ | .or rd _ _ | .and rd _ _ => some rd
  | .lb rd _ _ | .lh rd _ _ | .lw rd _ _ | .lbu rd _ _ | .lhu rd _ _ => some rd
  | .mul rd _ _ | .mulh rd _ _ | .mulhsu rd _ _ | .mulhu rd _ _ => some rd
  | .div rd _ _ | .divu rd _ _ | .rem rd _ _ | .remu rd _ _ => some rd
  | .lrW rd _ | .scW rd _ _ | .amoswapW rd _ _ | .amoaddW rd _ _ | .amoxorW rd _ _ => some rd
  | .amoandW rd _ _ | .amoorW rd _ _ | .amominW rd _ _ | .amomaxW rd _ _ | .amominuW rd _ _ | .amomaxuW rd _ _ =>
    some rd
  | .csrrw rd _ _ | .csrrs rd _ _ | .csrrc rd _ _ | .csrrwi rd _ _ | .csrrsi rd _ _ | .csrrci rd _ _ => some rd
  | .beq _ _ _ | .bne _ _ _ | .blt _ _ _ | .bge _ _ _ | .bltu _ _ _ | .bgeu _ _ _ => none
  | .sb _ _ _ | .sh _ _ _ | .sw _ _ _ | .fence | .fenceI => none
  | .ecall | .ebreak | .mret | .sret | .wfi => none

/-! ## Encodings -/

/-- A row of opcode_table.json: a word `w` with `(w & mask) == match` encodes the row's instruction, whose operands are
the fields of `w`. -/
structure OpcodeRow where
  mask : Word
  pattern : Word
  build : Word → Instr

/-- "`match` and `mask` such that a word w encodes the row's instruction exactly when `(w & mask) == match`". -/
def Encodes (mask pattern : Word) (build : Word → Instr) : Prop :=
  ∀ w : Word, w &&& mask = pattern → decodeWord w = .ok (build w)

/-- Build an R-type instruction from its fields. -/
def buildR (f : RegIdx → RegIdx → RegIdx → Instr) (w : Word) : Instr := f (rdField w) (rs1Field w) (rs2Field w)
/-- Build an I-type instruction from its fields. -/
def buildI (f : RegIdx → RegIdx → BitVec 12 → Instr) (w : Word) : Instr := f (rdField w) (rs1Field w) (immI w)
/-- Build a shift-immediate instruction from its fields. -/
def buildShift (f : RegIdx → RegIdx → BitVec 5 → Instr) (w : Word) : Instr := f (rdField w) (rs1Field w) (shamtField w)
/-- Build an S-type instruction from its fields. -/
def buildS (f : RegIdx → RegIdx → BitVec 12 → Instr) (w : Word) : Instr := f (rs1Field w) (rs2Field w) (immS w)
/-- Build a B-type instruction from its fields. -/
def buildB (f : RegIdx → RegIdx → BitVec 13 → Instr) (w : Word) : Instr := f (rs1Field w) (rs2Field w) (immB w)
/-- Build a U-type instruction from its fields. -/
def buildU (f : RegIdx → BitVec 20 → Instr) (w : Word) : Instr := f (rdField w) (immU w)
/-- Build a register CSR form from its fields. -/
def buildCsr (f : RegIdx → CsrAddr → RegIdx → Instr) (w : Word) : Instr := f (rdField w) (csrField w) (rs1Field w)
/-- Build an immediate CSR form from its fields. -/
def buildCsrImm (f : RegIdx → CsrAddr → BitVec 5 → Instr) (w : Word) : Instr :=
  f (rdField w) (csrField w) (zimmField w)

/-- The integer and control rows of opcode_table.json, in its order. -/
def opcodeRowsInteger : List OpcodeRow :=
  [⟨0x0000007F#32, 0x00000037#32, buildU .lui⟩, ⟨0x0000007F#32, 0x00000017#32, buildU .auipc⟩,
    ⟨0x0000707F#32, 0x00000013#32, buildI .addi⟩, ⟨0x0000707F#32, 0x00002013#32, buildI .slti⟩,
    ⟨0x0000707F#32, 0x00003013#32, buildI .sltiu⟩, ⟨0x0000707F#32, 0x00004013#32, buildI .xori⟩,
    ⟨0x0000707F#32, 0x00006013#32, buildI .ori⟩, ⟨0x0000707F#32, 0x00007013#32, buildI .andi⟩,
    ⟨0xFE00707F#32, 0x00001013#32, buildShift .slli⟩, ⟨0xFE00707F#32, 0x00005013#32, buildShift .srli⟩,
    ⟨0xFE00707F#32, 0x40005013#32, buildShift .srai⟩]
  ++ [⟨0xFE00707F#32, 0x00000033#32, buildR .add⟩, ⟨0xFE00707F#32, 0x40000033#32, buildR .sub⟩,
    ⟨0xFE00707F#32, 0x00001033#32, buildR .sll⟩, ⟨0xFE00707F#32, 0x00002033#32, buildR .slt⟩,
    ⟨0xFE00707F#32, 0x00003033#32, buildR .sltu⟩, ⟨0xFE00707F#32, 0x00004033#32, buildR .xor⟩,
    ⟨0xFE00707F#32, 0x00005033#32, buildR .srl⟩, ⟨0xFE00707F#32, 0x40005033#32, buildR .sra⟩,
    ⟨0xFE00707F#32, 0x00006033#32, buildR .or⟩, ⟨0xFE00707F#32, 0x00007033#32, buildR .and⟩]
  ++ [⟨0x0000007F#32, 0x0000006F#32, fun w => .jal (rdField w) (immJ w)⟩, ⟨0x0000707F#32, 0x00000067#32, buildI .jalr⟩,
    ⟨0x0000707F#32, 0x00000063#32, buildB .beq⟩, ⟨0x0000707F#32, 0x00001063#32, buildB .bne⟩,
    ⟨0x0000707F#32, 0x00004063#32, buildB .blt⟩, ⟨0x0000707F#32, 0x00005063#32, buildB .bge⟩,
    ⟨0x0000707F#32, 0x00006063#32, buildB .bltu⟩, ⟨0x0000707F#32, 0x00007063#32, buildB .bgeu⟩]

/-- The load, store, fence, multiply and divide rows of opcode_table.json. -/
def opcodeRowsMemory : List OpcodeRow :=
  [⟨0x0000707F#32, 0x00000003#32, buildI .lb⟩, ⟨0x0000707F#32, 0x00001003#32, buildI .lh⟩,
    ⟨0x0000707F#32, 0x00002003#32, buildI .lw⟩, ⟨0x0000707F#32, 0x00004003#32, buildI .lbu⟩,
    ⟨0x0000707F#32, 0x00005003#32, buildI .lhu⟩, ⟨0x0000707F#32, 0x00000023#32, buildS .sb⟩,
    ⟨0x0000707F#32, 0x00001023#32, buildS .sh⟩, ⟨0x0000707F#32, 0x00002023#32, buildS .sw⟩,
    ⟨0x0000707F#32, 0x0000000F#32, fun _ => .fence⟩, ⟨0x0000707F#32, 0x0000100F#32, fun _ => .fenceI⟩]
  ++ [⟨0xFE00707F#32, 0x02000033#32, buildR .mul⟩, ⟨0xFE00707F#32, 0x02001033#32, buildR .mulh⟩,
    ⟨0xFE00707F#32, 0x02002033#32, buildR .mulhsu⟩, ⟨0xFE00707F#32, 0x02003033#32, buildR .mulhu⟩,
    ⟨0xFE00707F#32, 0x02004033#32, buildR .div⟩, ⟨0xFE00707F#32, 0x02005033#32, buildR .divu⟩,
    ⟨0xFE00707F#32, 0x02006033#32, buildR .rem⟩, ⟨0xFE00707F#32, 0x02007033#32, buildR .remu⟩]

/-- The atomic, CSR and system rows of opcode_table.json. -/
def opcodeRowsSystem : List OpcodeRow :=
  [⟨0xF800707F#32, 0x1000202F#32, fun w => .lrW (rdField w) (rs1Field w)⟩,
    ⟨0xF800707F#32, 0x1800202F#32, buildR .scW⟩, ⟨0xF800707F#32, 0x0800202F#32, buildR .amoswapW⟩,
    ⟨0xF800707F#32, 0x0000202F#32, buildR .amoaddW⟩, ⟨0xF800707F#32, 0x2000202F#32, buildR .amoxorW⟩,
    ⟨0xF800707F#32, 0x6000202F#32, buildR .amoandW⟩, ⟨0xF800707F#32, 0x4000202F#32, buildR .amoorW⟩,
    ⟨0xF800707F#32, 0x8000202F#32, buildR .amominW⟩, ⟨0xF800707F#32, 0xA000202F#32, buildR .amomaxW⟩,
    ⟨0xF800707F#32, 0xC000202F#32, buildR .amominuW⟩, ⟨0xF800707F#32, 0xE000202F#32, buildR .amomaxuW⟩]
  ++ [⟨0x0000707F#32, 0x00001073#32, buildCsr .csrrw⟩, ⟨0x0000707F#32, 0x00002073#32, buildCsr .csrrs⟩,
    ⟨0x0000707F#32, 0x00003073#32, buildCsr .csrrc⟩, ⟨0x0000707F#32, 0x00005073#32, buildCsrImm .csrrwi⟩,
    ⟨0x0000707F#32, 0x00006073#32, buildCsrImm .csrrsi⟩, ⟨0x0000707F#32, 0x00007073#32, buildCsrImm .csrrci⟩,
    ⟨0xFFF0707F#32, 0x00000073#32, fun _ => .ecall⟩, ⟨0xFFF0707F#32, 0x00100073#32, fun _ => .ebreak⟩,
    ⟨0xFFF0707F#32, 0x30200073#32, fun _ => .mret⟩, ⟨0xFFF0707F#32, 0x10200073#32, fun _ => .sret⟩,
    ⟨0xFFF0707F#32, 0x10500073#32, fun _ => .wfi⟩]

/-- The 69 rows of opcode_table.json. -/
def opcodeRows : List OpcodeRow := opcodeRowsInteger ++ opcodeRowsMemory ++ opcodeRowsSystem

/-- The bits of its word that are part of the instruction: all but the fields the decoder ignores (R196). -/
def usedBits : Instr → Word
  | .fence | .fenceI => 0x0000707F#32
  | .ecall | .ebreak | .mret | .sret | .wfi => 0xFFF0707F#32
  | .lrW _ _ => 0xF80FFFFF#32
  | .scW _ _ _ | .amoswapW _ _ _ | .amoaddW _ _ _ | .amoxorW _ _ _ | .amoandW _ _ _ | .amoorW _ _ _ => 0xF9FFFFFF#32
  | .amominW _ _ _ | .amomaxW _ _ _ | .amominuW _ _ _ | .amomaxuW _ _ _ => 0xF9FFFFFF#32
  | _ => 0xFFFFFFFF#32

/-! ## The invariant -/

/-- The bits of `mip` that can be 1: SSIP, MSIP, STIP, MTIP, SEIP; "MEIP is always 0" and the others read 0 (R53,
R399). -/
def mipPossible : Word := 0x000002AA#32

/-- A canonical per-source map of the PLIC: it lists sources 1 to n-1 only (R445, I28). -/
def sourceMapWf {w : Nat} (n : Nat) (m : Sparse w) : Prop := Sparse.wf m = true ∧ Sparse.within 1 n m = true

/-- What every step keeps: the hard-wired register's slot is 0, every map is canonical, reserved bits of `mstatus`,
`mip` and `lsr` read as the spec says, and the PLIC lists only sources that exist. -/
structure State.Inv (s : State) : Prop where
  /-- R31. -/
  x0 : s.regs[(0 : RegIdx)] = 0#32
  /-- The canonical form of RAM. -/
  mem : s.mem.wf = true
  /-- The canonical form of the pixels. -/
  fb : Sparse.wf s.fb = true
  /-- The canonical form of the bank's extra words. -/
  other : Sparse.wf s.csr.other = true
  /-- R47: the bits outside `MSTATUS_MASK` read 0. -/
  mstatus : s.csr.mstatus &&& ~~~mstatusMask = 0#32
  /-- R53. -/
  mip : s.csr.mip &&& ~~~mipPossible = 0#32
  /-- R113, R116: THRE and TEMT stay set, the bits other than DR, THRE and TEMT are always 0. -/
  lsr : s.uart.lsr ||| 0x01#8 = 0x61#8
  /-- R445, I28. -/
  priority : sourceMapWf s.cfg.plicNSources s.plic.priority
  pending : sourceMapWf s.cfg.plicNSources s.plic.pending
  enable : sourceMapWf s.cfg.plicNSources s.plic.enable
  inService : sourceMapWf s.cfg.plicNSources s.plic.inService
  /-- R451: the latch holds 0 or the id of a source. -/
  claimLatch : s.plic.claimLatch = 0#32 ∨ s.plic.claimLatch.toNat < s.cfg.plicNSources

end Sys2Proof.Machine
end

