-- ==== Sys2Proof/Certificates/Slice0/Obligations.lean ====
section
/-!
DEFINITION. Sys2Proof/Certificates/Slice0/Obligations.lean: the statements about this machine, each from the numbered
rules of spec/ that its docstring and OBLIGATIONS.json name. Values are written with integer and natural-number
arithmetic, or bit by bit, and not with the operations the meanings use.
-/

open Sys2Proof Sys2Proof.Machine

/-! ## Encoding (30_encoding.md) -/

/-- R202: "`decode(encode(fields)) == fields` (round-trip) for each format's field set", and "Decoding followed by
encoding gives back every field the instruction uses". The second clause also says that what the decoder gives is
well-formed. -/
def Obligations.DecodeEncodeRoundTrip : Prop :=
  (∀ i : Instr, i.wellFormed = true → decodeWord (encode i) = .ok i) ∧
  (∀ (w : Word) (i : Instr), decodeWord w = .ok i →
    i.wellFormed = true ∧ encode i &&& usedBits i = w &&& usedBits i)

/-- R196: the fields the decoder ignores, "so that every value of them selects the same instruction". Rests on what
the spec marks as its own: the decision D27 (log 16). -/
def Obligations.IgnoredFieldsSelectTheSameInstruction : Prop :=
  ∀ (w w' : Word) (i : Instr), decodeWord w = .ok i → w' &&& usedBits i = w &&& usedBits i → decodeWord w' = .ok i

/-- R185 to R194 and opcode_table.json: a word that matches a row decodes to that row's instruction with the operands
its fields hold, the table has 69 rows, and a word that matches no row decodes to nothing. Rests on what the spec
marks as its own: the decision D27, the general knowledge of R185, R186 (log 16). -/
def Obligations.DecodeMapIsTheOpcodeTable : Prop :=
  opcodeRows.length = 69 ∧
  (∀ row ∈ opcodeRows, Encodes row.mask row.pattern row.build) ∧
  (∀ w : Word, (∀ row ∈ opcodeRows, w &&& row.mask ≠ row.pattern) →
    decodeWord w = .error (if w = 0#32 then .zeroWord else .noMapping w))

/-- R195: "Illegal encodings stop the engine. They do not trap". The four zero bytes match no row either. The rows are
the decode map of R185 to R194. That a step takes the time source's answer first is the model's choice (log 3). Rests
on what the spec marks as its own: the decisions D26, D27, the general knowledge of R185, R186 (log 16). -/
def Obligations.UndecodableWordHaltsTheEngine : Prop :=
  ∀ s : State, s.run = .running →
    (∀ row ∈ opcodeRows, (fetch (timeStep s)).1 &&& row.mask ≠ row.pattern) →
    step s = .next
      { (fetch (timeStep s)).2 with
        run := .halted (if (fetch (timeStep s)).1 = 0#32 then .zeroWord else .decodeError (fetch (timeStep s)).1) }

/-- R179 to R183: the value of every immediate as a sum of the word's bits with their weights, and the ranges R181 and
R183 give. -/
def Obligations.ImmediateLayouts : Prop :=
  ∀ w : Word,
    (imm12 (immI w)).toInt = w.toInt / 2 ^ 20 ∧
    (imm12 (immS w)).toInt = w.toInt / 2 ^ 25 * 2 ^ 5 + ((w.toNat / 2 ^ 7 % 2 ^ 5 : Nat) : Int) ∧
    (branchOffset (immB w)).toInt =
      w.toInt / 2 ^ 31 * 2 ^ 12 + ((w.toNat / 2 ^ 7 % 2 : Nat) : Int) * 2 ^ 11
        + ((w.toNat / 2 ^ 25 % 2 ^ 6 : Nat) : Int) * 2 ^ 5 + ((w.toNat / 2 ^ 8 % 2 ^ 4 : Nat) : Int) * 2 ∧
    -4096 ≤ (branchOffset (immB w)).toInt ∧ (branchOffset (immB w)).toInt ≤ 4094 ∧
    (immUpper (immU w)).toNat = w.toNat / 2 ^ 12 * 2 ^ 12 ∧
    (jumpOffset (immJ w)).toInt =
      w.toInt / 2 ^ 31 * 2 ^ 20 + ((w.toNat / 2 ^ 12 % 2 ^ 8 : Nat) : Int) * 2 ^ 12
        + ((w.toNat / 2 ^ 20 % 2 : Nat) : Int) * 2 ^ 11 + ((w.toNat / 2 ^ 21 % 2 ^ 10 : Nat) : Int) * 2 ∧
    -(2 ^ 20) ≤ (jumpOffset (immJ w)).toInt ∧ (jumpOffset (immJ w)).toInt ≤ 2 ^ 20 - 2

/-- R171 and R184: the raw fields, as numbers: the shift amount, the CSR address, the CSR immediate zero-extended to
32 bits, and the three register fields. Rests on what the spec marks as its own: the general knowledge of R171, R184
(log 16). -/
def Obligations.RawFieldLayouts : Prop :=
  ∀ w : Word,
    (shamtField w).toNat = w.toNat / 2 ^ 20 % 2 ^ 5 ∧
    (csrField w).toNat = w.toNat / 2 ^ 20 ∧
    (zimm32 (zimmField w)).toNat = w.toNat / 2 ^ 15 % 2 ^ 5 ∧
    (rdField w).val = w.toNat / 2 ^ 7 % 2 ^ 5 ∧
    (rs1Field w).val = w.toNat / 2 ^ 15 % 2 ^ 5 ∧
    (rs2Field w).val = w.toNat / 2 ^ 20 % 2 ^ 5

/-- A few words written out from the spec's encodings, one or more of each family, decode to the instructions they
stand for (a sanity statement; the examples of R224, R226, R235, R274, R278, R296, R301, R302, R312, R331, R334, R351
and R367, the last by 45_system.md section 3). -/
def Obligations.SampleWordsDecode : Prop :=
  decodeWord 0x123452B7#32 = .ok (.lui 5 0x12345#20) ∧
  decodeWord 0x06800513#32 = .ok (.addi 10 0 104#12) ∧
  decodeWord 0x007403B3#32 = .ok (.add 7 8 7) ∧
  decodeWord 0x008000EF#32 = .ok (.jal 1 8#21) ∧
  decodeWord 0xFE629CE3#32 = .ok (.bne 5 6 (-8#13)) ∧
  decodeWord 0xFFC32283#32 = .ok (.lw 5 6 (-4#12)) ∧
  decodeWord 0xFE732E23#32 = .ok (.sw 6 7 (-4#12)) ∧
  decodeWord 0x0FF0000F#32 = .ok .fence ∧
  decodeWord 0x027302B3#32 = .ok (.mul 5 6 7) ∧
  decodeWord 0x100322AF#32 = .ok (.lrW 5 6) ∧
  decodeWord 0x087322AF#32 = .ok (.amoswapW 5 6 7) ∧
  decodeWord 0x340312F3#32 = .ok (.csrrw 5 0x340#12 6) ∧
  decodeWord 0x30200073#32 = .ok .mret

/-! ## The step (60_exceptions.md R390, R392, R441) -/

/-- R390: a running engine whose fetched word decodes to `i` executes `i` on the state after the time source's action
and the fetch, and then, unless the instruction halted the engine, samples the interrupts; `exec` always answers a next
state. The order "time source, then `Step()`" is the model's choice (log 3). -/
def Obligations.StepRunsTheDecodedInstruction : Prop :=
  ∀ (s : State) (i : Instr), s.run = .running → decodeWord (fetch (timeStep s)).1 = .ok i →
    ∃ t, exec i (fetch (timeStep s)).2 = .next t ∧
      (t.run = .running → step s = .next (sampleInterrupts t)) ∧ (t.run ≠ .running → step s = .next t)

/-- R105: the fetched word's bytes are the four bytes the bus gives at pc, pc+1, pc+2 and pc+3, in this order from bit
0 up, and the fetch's side effects are those of the four byte reads. Rests on what the spec marks as its own: the
decisions D5, D46, the derivations of R106 (log 16). -/
def Obligations.FetchReadsFourBytesLittleEndian : Prop :=
  ∀ s : State,
    let r := readBytes 4 s.pc s
    (fetch s).2 = r.2 ∧ r.1.length = 4 ∧ ∀ k < 4, (fetch s).1.extractLsb' (8 * k) 8 = r.1.getD k 0#8

/-- R390, R392: every instruction and every step of this machine answers a next state: no fault, no refusal. That a
halted engine's step answers one too is the model's reading (log 5). Rests on what the spec marks as its own: the
decision D26 (log 16). -/
def Obligations.EveryStepAnswersNext : Prop :=
  (∀ (i : Instr) (s : State), ∃ t, exec i s = .next t) ∧ (∀ s : State, ∃ t, step s = .next t)

/-- R392: "Halted is final". A halted engine takes no step, and a step that halts leaves the state as the fetch left
it, with the reason of one of the four halting events; pc keeps the address of the halting instruction. That a halted
engine's step answers the same state is the model's reading (log 5), and that a step takes the time source's answer
first is the model's choice (log 3). Rests on what the spec marks as its own: the decisions D24, D25, D26, D41, D48,
the general knowledge of R362, R366 (log 16). -/
def Obligations.HaltedIsFinal : Prop :=
  (∀ (s : State) (r : HaltReason), s.run = .halted r → step s = .next s) ∧
  (∀ (s t : State) (r : HaltReason), s.run = .running → step s = .next t → t.run = .halted r →
    t = { (fetch (timeStep s)).2 with run := .halted r } ∧ t.pc = s.pc ∧
    (((fetch (timeStep s)).1 = 0#32 ∧ r = .zeroWord) ∨
      (decodeWord (fetch (timeStep s)).1 = .error (.noMapping (fetch (timeStep s)).1)
        ∧ r = .decodeError (fetch (timeStep s)).1) ∨
      (decodeWord (fetch (timeStep s)).1 = .ok .ecall ∧ s.cfg.selfTest = true ∧
        (((s.readReg 10 = 0#32 ∨ s.readReg 10 = 42#32) ∧ r = .selfTestPass (s.readReg 10)) ∨
          (s.readReg 10 ≠ 0#32 ∧ s.readReg 10 ≠ 42#32
            ∧ r = .selfTestFail (s.readReg 10) (s.readReg s.cfg.selftestDiagReg)))) ∨
      (decodeWord (fetch (timeStep s)).1 = .ok .ebreak ∧ s.cfg.ebreakMode = .halt ∧ r = .ebreakHalt)))

/-- R441: `TimeStep(delta)` adds delta to `mtime` modulo 2^64 and changes nothing else. That the answers come from a
list, and beyond it are free values, whatever they are, is the model's choice (log 3). Rests on what the spec marks as
its own: the decision D45 (log 16). -/
def Obligations.TimeSourceAdvancesMtime : Prop :=
  ∀ s : State,
    ∃ (d : Nat) (o : Oracle Nat) (c : Clint),
      (s.timeSource.next = [] → d = Config.freeTime s.timeSource.count ∧ o = ⟨[], s.timeSource.count + 1⟩) ∧
      (∀ a rest, s.timeSource.next = a :: rest → d = a ∧ o = ⟨rest, s.timeSource.count⟩) ∧
      timeStep s = { s with clint := c, timeSource := o } ∧
      c.mtime.toNat = (s.clint.mtime.toNat + d) % 2 ^ 64 ∧ c.mtimecmp = s.clint.mtimecmp ∧ c.msip = s.clint.msip

/-! ## Integer instructions (40_integer.md) -/

/-- R224 to R234: LUI and AUIPC; ADDI, SLTI, SLTIU, XORI, ORI, ANDI, where the immediate's bit 11 stands in every bit
above it; SLLI, SRLI, SRAI. -/
def Obligations.ImmediateFormResults : Prop :=
  (Encodes 0x0000007F#32 0x00000037#32 (buildU .lui) ∧ Encodes 0x0000007F#32 0x00000017#32 (buildU .auipc) ∧
    Encodes 0x0000707F#32 0x00000013#32 (buildI .addi) ∧ Encodes 0x0000707F#32 0x00002013#32 (buildI .slti) ∧
    Encodes 0x0000707F#32 0x00003013#32 (buildI .sltiu) ∧ Encodes 0x0000707F#32 0x00004013#32 (buildI .xori) ∧
    Encodes 0x0000707F#32 0x00006013#32 (buildI .ori) ∧ Encodes 0x0000707F#32 0x00007013#32 (buildI .andi) ∧
    Encodes 0xFE00707F#32 0x00001013#32 (buildShift .slli) ∧ Encodes 0xFE00707F#32 0x00005013#32 (buildShift .srli) ∧
    Encodes 0xFE00707F#32 0x40005013#32 (buildShift .srai)) ∧
  ∀ (rd rs1 : RegIdx) (upper : BitVec 20) (imm : BitVec 12) (shamt : BitVec 5) (s : State),
    let a := s.readReg rs1
    WritesRd (.lui rd upper) rd (BitVec.ofNat 32 (upper.toNat * 2 ^ 12)) s ∧
    WritesRd (.auipc rd upper) rd (BitVec.ofNat 32 (s.pc.toNat + upper.toNat * 2 ^ 12)) s ∧
    WritesRd (.addi rd rs1 imm) rd (BitVec.ofInt 32 (a.toInt + imm.toInt)) s ∧
    WritesRd (.slti rd rs1 imm) rd (if a.toInt < imm.toInt then 1#32 else 0#32) s ∧
    WritesRd (.sltiu rd rs1 imm) rd (if (a.toNat : Int) < imm.toInt % 2 ^ 32 then 1#32 else 0#32) s ∧
    (∃ v, WritesRd (.xori rd rs1 imm) rd v s ∧
      ∀ k < 32, v.getLsbD k = (a.getLsbD k != imm.getLsbD (min k 11))) ∧
    (∃ v, WritesRd (.ori rd rs1 imm) rd v s ∧
      ∀ k < 32, v.getLsbD k = (a.getLsbD k || imm.getLsbD (min k 11))) ∧
    (∃ v, WritesRd (.andi rd rs1 imm) rd v s ∧
      ∀ k < 32, v.getLsbD k = (a.getLsbD k && imm.getLsbD (min k 11))) ∧
    WritesRd (.slli rd rs1 shamt) rd (BitVec.ofNat 32 (a.toNat * 2 ^ shamt.toNat)) s ∧
    WritesRd (.srli rd rs1 shamt) rd (BitVec.ofNat 32 (a.toNat / 2 ^ shamt.toNat)) s ∧
    WritesRd (.srai rd rs1 shamt) rd (BitVec.ofInt 32 (a.toInt / 2 ^ shamt.toNat)) s

/-- R235 to R244: the ten register-register instructions. A shift amount is rs2 modulo 32 (R221). -/
def Obligations.RegisterRegisterResults : Prop :=
  (Encodes 0xFE00707F#32 0x00000033#32 (buildR .add) ∧ Encodes 0xFE00707F#32 0x40000033#32 (buildR .sub) ∧
    Encodes 0xFE00707F#32 0x00001033#32 (buildR .sll) ∧ Encodes 0xFE00707F#32 0x00002033#32 (buildR .slt) ∧
    Encodes 0xFE00707F#32 0x00003033#32 (buildR .sltu) ∧ Encodes 0xFE00707F#32 0x00004033#32 (buildR .xor) ∧
    Encodes 0xFE00707F#32 0x00005033#32 (buildR .srl) ∧ Encodes 0xFE00707F#32 0x40005033#32 (buildR .sra) ∧
    Encodes 0xFE00707F#32 0x00006033#32 (buildR .or) ∧ Encodes 0xFE00707F#32 0x00007033#32 (buildR .and)) ∧
  ∀ (rd rs1 rs2 : RegIdx) (s : State),
    let a := s.readReg rs1
    let b := s.readReg rs2
    WritesRd (.add rd rs1 rs2) rd (BitVec.ofNat 32 (a.toNat + b.toNat)) s ∧
    WritesRd (.sub rd rs1 rs2) rd (BitVec.ofInt 32 ((a.toNat : Int) - b.toNat)) s ∧
    WritesRd (.sll rd rs1 rs2) rd (BitVec.ofNat 32 (a.toNat * 2 ^ (b.toNat % 32))) s ∧
    WritesRd (.slt rd rs1 rs2) rd (if a.toInt < b.toInt then 1#32 else 0#32) s ∧
    WritesRd (.sltu rd rs1 rs2) rd (if a.toNat < b.toNat then 1#32 else 0#32) s ∧
    WritesRd (.srl rd rs1 rs2) rd (BitVec.ofNat 32 (a.toNat / 2 ^ (b.toNat % 32))) s ∧
    WritesRd (.sra rd rs1 rs2) rd (BitVec.ofInt 32 (a.toInt / 2 ^ (b.toNat % 32))) s ∧
    (∃ v, WritesRd (.xor rd rs1 rs2) rd v s ∧ ∀ k < 32, v.getLsbD k = (a.getLsbD k != b.getLsbD k)) ∧
    (∃ v, WritesRd (.or rd rs1 rs2) rd v s ∧ ∀ k < 32, v.getLsbD k = (a.getLsbD k || b.getLsbD k)) ∧
    (∃ v, WritesRd (.and rd rs1 rs2) rd v s ∧ ∀ k < 32, v.getLsbD k = (a.getLsbD k && b.getLsbD k))

/-! ## Control transfer (41_control.md) -/

/-- R274 JAL and R275 JALR: the link value, the target (bit 0 of a JALR target is kept), nothing else; rs1 is read
before rd is written. That the target of JAL at an odd pc is the odd sum, where R271 calls it even, is the model's
choice (log 22). Rests on what the spec marks as its own: the decision D6 (log 16). -/
def Obligations.JumpResults : Prop :=
  Encodes 0x0000007F#32 0x0000006F#32 (fun w => .jal (rdField w) (immJ w)) ∧
  Encodes 0x0000707F#32 0x00000067#32 (buildI .jalr) ∧
  ∀ (rd rs1 : RegIdx) (off : BitVec 21) (imm : BitVec 12) (s : State),
    (∃ t, exec (.jal rd off) s = .next t ∧ RegWrite rd (BitVec.ofNat 32 (s.pc.toNat + 4)) s t ∧
      t.pc = BitVec.ofInt 32 ((s.pc.toNat : Int) + off.toInt) ∧ SameBeyondRegs s t) ∧
    (∃ t, exec (.jalr rd rs1 imm) s = .next t ∧ RegWrite rd (BitVec.ofNat 32 (s.pc.toNat + 4)) s t ∧
      t.pc = BitVec.ofInt 32 ((s.readReg rs1).toInt + imm.toInt) ∧ SameBeyondRegs s t)

/-- R276 to R282: a branch changes pc only, to `pc + imm_B` when its condition holds and to `pc + 4` when not. That
the target at an odd pc is the odd sum, where R271 calls it even, is the model's choice (log 22). Rests on what the
spec marks as its own: the decision D6 (log 16). -/
def Obligations.BranchResults : Prop :=
  (Encodes 0x0000707F#32 0x00000063#32 (buildB .beq) ∧ Encodes 0x0000707F#32 0x00001063#32 (buildB .bne) ∧
    Encodes 0x0000707F#32 0x00004063#32 (buildB .blt) ∧ Encodes 0x0000707F#32 0x00005063#32 (buildB .bge) ∧
    Encodes 0x0000707F#32 0x00006063#32 (buildB .bltu) ∧ Encodes 0x0000707F#32 0x00007063#32 (buildB .bgeu)) ∧
  ∀ (rs1 rs2 : RegIdx) (off : BitVec 13) (s : State),
    let a := s.readReg rs1
    let b := s.readReg rs2
    let taken : Word := BitVec.ofInt 32 ((s.pc.toNat : Int) + off.toInt)
    let next : Word := BitVec.ofNat 32 (s.pc.toNat + 4)
    SetsPcOnly (.beq rs1 rs2 off) (if a.toNat = b.toNat then taken else next) s ∧
    SetsPcOnly (.bne rs1 rs2 off) (if a.toNat ≠ b.toNat then taken else next) s ∧
    SetsPcOnly (.blt rs1 rs2 off) (if a.toInt < b.toInt then taken else next) s ∧
    SetsPcOnly (.bge rs1 rs2 off) (if b.toInt ≤ a.toInt then taken else next) s ∧
    SetsPcOnly (.bltu rs1 rs2 off) (if a.toNat < b.toNat then taken else next) s ∧
    SetsPcOnly (.bgeu rs1 rs2 off) (if b.toNat ≤ a.toNat then taken else next) s

/-! ## Loads, stores and fences (42_loadstore.md) -/

/-- R294 to R298: LB, LH, LW, LBU, LHU, at every address and for every rd, x0 included (the reads and their side effects
still happen, R291). -/
def Obligations.LoadResults : Prop :=
  (Encodes 0x0000707F#32 0x00000003#32 (buildI .lb) ∧ Encodes 0x0000707F#32 0x00001003#32 (buildI .lh) ∧
    Encodes 0x0000707F#32 0x00002003#32 (buildI .lw) ∧ Encodes 0x0000707F#32 0x00004003#32 (buildI .lbu) ∧
    Encodes 0x0000707F#32 0x00005003#32 (buildI .lhu)) ∧
  ∀ (rd rs1 : RegIdx) (imm : BitVec 12) (s : State),
    let ea : Word := BitVec.ofInt 32 ((s.readReg rs1).toInt + imm.toInt)
    LoadResult (.lb rd rs1 imm) 1 rd ea (fun n => BitVec.ofInt 32 (if n < 128 then n else (n : Int) - 256)) s ∧
    LoadResult (.lh rd rs1 imm) 2 rd ea (fun n => BitVec.ofInt 32 (if n < 32768 then n else (n : Int) - 65536)) s ∧
    LoadResult (.lw rd rs1 imm) 4 rd ea (fun n => BitVec.ofNat 32 n) s ∧
    LoadResult (.lbu rd rs1 imm) 1 rd ea (fun n => BitVec.ofNat 32 n) s ∧
    LoadResult (.lhu rd rs1 imm) 2 rd ea (fun n => BitVec.ofNat 32 n) s

/-- R299 to R301: SB, SH, SW. -/
def Obligations.StoreResults : Prop :=
  (Encodes 0x0000707F#32 0x00000023#32 (buildS .sb) ∧ Encodes 0x0000707F#32 0x00001023#32 (buildS .sh) ∧
    Encodes 0x0000707F#32 0x00002023#32 (buildS .sw)) ∧
  ∀ (rs1 rs2 : RegIdx) (imm : BitVec 12) (s : State),
    let ea : Word := BitVec.ofInt 32 ((s.readReg rs1).toInt + imm.toInt)
    StoreResult (.sb rs1 rs2 imm) 1 ea (s.readReg rs2) s ∧
    StoreResult (.sh rs1 rs2 imm) 2 ea (s.readReg rs2) s ∧
    StoreResult (.sw rs1 rs2 imm) 4 ea (s.readReg rs2) s

/-- R302 FENCE and R303 FENCE.I: "only PC advances". -/
def Obligations.FenceResults : Prop :=
  Encodes 0x0000707F#32 0x0000000F#32 (fun _ => .fence) ∧ Encodes 0x0000707F#32 0x0000100F#32 (fun _ => .fenceI) ∧
  ∀ s : State,
    SetsPcOnly .fence (BitVec.ofNat 32 (s.pc.toNat + 4)) s ∧ SetsPcOnly .fenceI (BitVec.ofNat 32 (s.pc.toNat + 4)) s

/-- The frame of the loads and of `lr.w` (R111, R290, R291, R294 to R298, R331): no byte of RAM and no byte of the
framebuffer changes, nor the CLINT, a CSR, the mode or the parameters; no register but rd changes; the reservation and
its address change by `lr.w` alone (R330); and the UART and the PLIC change only if a byte of the access lies in one
of their windows. Rests on what the spec marks as its own: the decision D30, the derivations of R111, R291 (log 16).
-/
def Obligations.LoadFrame : Prop :=
  ∀ (i : Instr) (rd rs1 : RegIdx) (imm : BitVec 12) (n : Nat) (ea : Word) (s t : State),
    (i, n, ea) ∈
      ([(.lb rd rs1 imm, 1, effectiveAddress rs1 imm s), (.lbu rd rs1 imm, 1, effectiveAddress rs1 imm s),
        (.lh rd rs1 imm, 2, effectiveAddress rs1 imm s), (.lhu rd rs1 imm, 2, effectiveAddress rs1 imm s),
        (.lw rd rs1 imm, 4, effectiveAddress rs1 imm s), (.lrW rd rs1, 4, atomicAddress rs1 s)]
        : List (Instr × Nat × Word)) →
    exec i s = .next t →
    (∀ a, t.mem.read a = s.mem.read a) ∧ (∀ o, fbReadByte t.fb o = fbReadByte s.fb o) ∧
    (∀ r, r ≠ rd → t.readReg r = s.readReg r) ∧
    t.clint = s.clint ∧ t.csr = s.csr ∧ t.mode = s.mode ∧ t.run = s.run ∧ t.cfg = s.cfg ∧
    t.timeSource = s.timeSource ∧ (i ≠ .lrW rd rs1 → t.resv = s.resv ∧ t.resvAddr = s.resvAddr) ∧
    (NoReadSideEffect s.cfg ea n → t.uart = s.uart ∧ t.plic = s.plic)

/-- The frame of the stores (R102, R104, R111, R299 to R301): every byte of RAM outside the access reads as before; no
register and no CSR changes, nor the reservation and its address (R330); a device changes only if a byte of the access
lies in its window. Rests on what the spec marks as its own: the decisions D4, D5, D30, the derivations of R111, R291
(log 16). -/
def Obligations.StoreFrame : Prop :=
  ∀ (i : Instr) (rs1 rs2 : RegIdx) (imm : BitVec 12) (n : Nat) (s t : State),
    (i, n) ∈ ([(.sb rs1 rs2 imm, 1), (.sh rs1 rs2 imm, 2), (.sw rs1 rs2 imm, 4)] : List (Instr × Nat)) →
    exec i s = .next t →
    (∀ a, a ∉ accessBytes (effectiveAddress rs1 imm s) n → t.mem.read a = s.mem.read a) ∧
    (∀ r, t.readReg r = s.readReg r) ∧
    t.csr = s.csr ∧ t.mode = s.mode ∧ t.run = s.run ∧ t.cfg = s.cfg ∧ t.resv = s.resv ∧ t.resvAddr = s.resvAddr ∧
    t.timeSource = s.timeSource ∧
    ((∀ a ∈ accessBytes (effectiveAddress rs1 imm s) n, ∀ o, route s.cfg a ≠ .clint o) → t.clint = s.clint) ∧
    ((∀ a ∈ accessBytes (effectiveAddress rs1 imm s) n, ∀ o, route s.cfg a ≠ .plic o) → t.plic = s.plic) ∧
    ((∀ a ∈ accessBytes (effectiveAddress rs1 imm s) n, ∀ o, route s.cfg a ≠ .uart o) → t.uart = s.uart) ∧
    ((∀ a ∈ accessBytes (effectiveAddress rs1 imm s) n, ∀ o, route s.cfg a ≠ .fb o) → t.fb = s.fb) ∧
    ((∀ a ∈ accessBytes (effectiveAddress rs1 imm s) n, route s.cfg a ≠ .ram) → t.mem = s.mem)

/-- The frame of `sc.w` and the AMOs (R332, R333, R111): as for the stores, with the word at `x[rs1]`; rd is the one
register that changes, and the reservation changes by `sc.w` alone. An AMO also reads, so the UART and the PLIC stay
as they were only if no byte lies in their windows. An `sc.w` whose success test fails (R330: no reservation, or with
`SC_ADDRESS_CHECK` another address) performs no bus access: RAM and every device are as they were. Rests on what the
spec marks as its own: the decisions D4, D5, D29, D30, the general knowledge of R333, the derivations of R111 (log
16). -/
def Obligations.AtomicStoreFrame : Prop :=
  ∀ (i : Instr) (rd rs1 rs2 : RegIdx) (s t : State),
    i ∈ [.scW rd rs1 rs2, .amoswapW rd rs1 rs2, .amoaddW rd rs1 rs2, .amoxorW rd rs1 rs2, .amoandW rd rs1 rs2,
      .amoorW rd rs1 rs2, .amominW rd rs1 rs2, .amomaxW rd rs1 rs2, .amominuW rd rs1 rs2, .amomaxuW rd rs1 rs2] →
    exec i s = .next t →
    (∀ a, a ∉ accessBytes (atomicAddress rs1 s) 4 → t.mem.read a = s.mem.read a) ∧
    (∀ r, r ≠ rd → t.readReg r = s.readReg r) ∧
    t.csr = s.csr ∧ t.mode = s.mode ∧ t.run = s.run ∧ t.cfg = s.cfg ∧ t.timeSource = s.timeSource ∧
    t.resvAddr = s.resvAddr ∧ (i ≠ .scW rd rs1 rs2 → t.resv = s.resv) ∧
    ((∀ a ∈ accessBytes (atomicAddress rs1 s) 4, ∀ o, route s.cfg a ≠ .clint o) → t.clint = s.clint) ∧
    ((∀ a ∈ accessBytes (atomicAddress rs1 s) 4, ∀ o, route s.cfg a ≠ .plic o) → t.plic = s.plic) ∧
    ((∀ a ∈ accessBytes (atomicAddress rs1 s) 4, ∀ o, route s.cfg a ≠ .uart o) → t.uart = s.uart) ∧
    ((∀ a ∈ accessBytes (atomicAddress rs1 s) 4, ∀ o, route s.cfg a ≠ .fb o) → t.fb = s.fb) ∧
    (i = .scW rd rs1 rs2 → ¬ (s.resv = true ∧ (s.cfg.scAddressCheck = true → s.resvAddr = s.readReg rs1)) →
      t.mem = s.mem ∧ t.uart = s.uart ∧ t.clint = s.clint ∧ t.plic = s.plic ∧ t.fb = s.fb)

/-- The frame of the instructions that store nothing and are neither loads nor `lr.w` (R109, R223, R276, R302, R310,
R330, R350, R360): no byte of memory, no pixel and no CLINT or UART register changes, nor the reservation, the
parameters or the time answers, nor the PLIC but for `wfi`; no CSR changes but for the CSR forms, `ecall`, `ebreak`,
`mret`, `sret` and `wfi`, and the mode by the same ones without `wfi`; the engine halts by `ecall` and `ebreak` alone;
and no general register changes but the destination register. Rests on what the spec marks as its own: the decisions
D14, D21, D26, D30, D37, the derivations of R46 (log 16). -/
def Obligations.NonStoringFrame : Prop :=
  ∀ (i : Instr) (s t : State), writesMemory i = false →
    (∀ rd rs1 imm, i ≠ .lb rd rs1 imm ∧ i ≠ .lh rd rs1 imm ∧ i ≠ .lw rd rs1 imm ∧ i ≠ .lbu rd rs1 imm
      ∧ i ≠ .lhu rd rs1 imm ∧ i ≠ .lrW rd rs1) →
    exec i s = .next t →
    (∀ a, t.mem.read a = s.mem.read a) ∧ t.mem = s.mem ∧ t.fb = s.fb ∧ t.clint = s.clint ∧ t.uart = s.uart ∧
    t.cfg = s.cfg ∧ t.timeSource = s.timeSource ∧ t.resv = s.resv ∧ t.resvAddr = s.resvAddr ∧
    (i ≠ .wfi → t.plic = s.plic) ∧
    (touchesCsrs i = false → t.csr = s.csr) ∧
    (touchesCsrs i = false ∨ i = .wfi → t.mode = s.mode) ∧
    (i ≠ .ecall → i ≠ .ebreak → t.run = s.run) ∧
    (∀ r, destination i ≠ some r → t.readReg r = s.readReg r)

/-- R102, R104, R106: after a store to RAM, byte `k` of the access holds bits `8k+7 : 8k` of rs2. The canonical form
of RAM is the premise (it is part of `State.Inv`). Rests on what the spec marks as its own: the decisions D4, D5, the
derivations of R106 (log 16). -/
def Obligations.StoreThenReadGivesTheBytes : Prop :=
  ∀ (i : Instr) (rs1 rs2 : RegIdx) (imm : BitVec 12) (n : Nat) (s t : State),
    (i, n) ∈ ([(.sb rs1 rs2 imm, 1), (.sh rs1 rs2 imm, 2), (.sw rs1 rs2 imm, 4)] : List (Instr × Nat)) →
    s.mem.wf = true → InRam s.cfg (effectiveAddress rs1 imm s) n → exec i s = .next t →
    ∀ k < n, (t.mem.read (effectiveAddress rs1 imm s + BitVec.ofNat 32 k)).toNat =
      (s.readReg rs2).toNat / 2 ^ (8 * k) % 2 ^ 8

/-! ## Multiply and divide (43_muldiv.md) -/

/-- R312, R313 and R315: the low word of the product, and the high word of the 64-bit product of two signed and of two
unsigned operands, each extended to 64 bits by its own sign rule. -/
def Obligations.MultiplyResults : Prop :=
  (Encodes 0xFE00707F#32 0x02000033#32 (buildR .mul) ∧ Encodes 0xFE00707F#32 0x02001033#32 (buildR .mulh) ∧
    Encodes 0xFE00707F#32 0x02003033#32 (buildR .mulhu)) ∧
  ∀ (rd rs1 rs2 : RegIdx) (s : State),
    let a := s.readReg rs1
    let b := s.readReg rs2
    WritesRd (.mul rd rs1 rs2) rd (BitVec.ofNat 32 (a.toNat * b.toNat)) s ∧
    WritesRd (.mulh rd rs1 rs2) rd ((a.signExtend 64 * b.signExtend 64).extractLsb' 32 32) s ∧
    WritesRd (.mulhu rd rs1 rs2) rd ((a.setWidth 64 * b.setWidth 64).extractLsb' 32 32) s

/-- R314 MULHSU: the high word of signed rs1 times unsigned rs2. Which operand is signed is the spec's general
knowledge ("which operand is signed is [from general knowledge, not in source]", log 16). Rests on what the spec marks
as its own: the general knowledge of R314 (log 16). -/
def Obligations.MulhsuResult : Prop :=
  Encodes 0xFE00707F#32 0x02002033#32 (buildR .mulhsu) ∧
  ∀ (rd rs1 rs2 : RegIdx) (s : State),
    WritesRd (.mulhsu rd rs1 rs2) rd
      (((s.readReg rs1).signExtend 64 * (s.readReg rs2).setWidth 64).extractLsb' 32 32) s

/-- R311 and R316 to R319: quotients and remainders, with the results of the corner cases; and "dividend = divisor *
quotient + remainder" for every divisor other than 0. Rests on what the spec marks as its own: the general knowledge
of R311 (log 16). -/
def Obligations.DivideResults : Prop :=
  (Encodes 0xFE00707F#32 0x02004033#32 (buildR .div) ∧ Encodes 0xFE00707F#32 0x02005033#32 (buildR .divu) ∧
    Encodes 0xFE00707F#32 0x02006033#32 (buildR .rem) ∧ Encodes 0xFE00707F#32 0x02007033#32 (buildR .remu)) ∧
  ∀ (rd rs1 rs2 : RegIdx) (s : State),
    let a := s.readReg rs1
    let b := s.readReg rs2
    ∃ q r qu ru : Word,
      WritesRd (.div rd rs1 rs2) rd q s ∧ WritesRd (.rem rd rs1 rs2) rd r s ∧
      WritesRd (.divu rd rs1 rs2) rd qu s ∧ WritesRd (.remu rd rs1 rs2) rd ru s ∧
      (b = 0#32 → q = 0xFFFFFFFF#32 ∧ qu = 0xFFFFFFFF#32 ∧ r = a ∧ ru = a) ∧
      (a = 0x80000000#32 ∧ b = 0xFFFFFFFF#32 → q = 0x80000000#32 ∧ r = 0#32 ∧ qu = 0#32 ∧ ru = 0x80000000#32) ∧
      (b ≠ 0#32 → ¬ (a = 0x80000000#32 ∧ b = 0xFFFFFFFF#32) →
        q.toInt = (if (0 ≤ a.toInt) = (0 ≤ b.toInt) then ((a.toInt.natAbs / b.toInt.natAbs : Nat) : Int)
          else -((a.toInt.natAbs / b.toInt.natAbs : Nat) : Int)) ∧
        r.toInt = (if 0 ≤ a.toInt then ((a.toInt.natAbs % b.toInt.natAbs : Nat) : Int)
          else -((a.toInt.natAbs % b.toInt.natAbs : Nat) : Int))) ∧
      (b ≠ 0#32 → qu.toNat = a.toNat / b.toNat ∧ ru.toNat = a.toNat % b.toNat) ∧
      (b ≠ 0#32 → a = b * q + r ∧ a = b * qu + ru)

/-! ## Atomics (44_atomic.md) -/

/-- R331 LR.W: the word read, the reservation set, and with `SC_ADDRESS_CHECK` its address recorded. R330's success
test and R332 SC.W: it clears the reservation in every case; on success it writes the word and rd gets 0, on failure
rd gets 1 and no byte is accessed. Rests on what the spec marks as its own: the decisions D5, D27, D30 (log 16). -/
def Obligations.ReservationInstructionResults : Prop :=
  Encodes 0xF800707F#32 0x1000202F#32 (fun w => .lrW (rdField w) (rs1Field w)) ∧
  Encodes 0xF800707F#32 0x1800202F#32 (buildR .scW) ∧
  ∀ (rd rs1 rs2 : RegIdx) (s : State),
    let ea := s.readReg rs1
    let r := readBytes 4 ea s
    (∃ t, exec (.lrW rd rs1) s = .next t ∧ RegWrite rd (BitVec.ofNat 32 (leNat r.1)) s t ∧ t.pc = s.pc + 4#32 ∧
      SameBeyondRegs
        { r.2 with resv := true, resvAddr := if s.cfg.scAddressCheck = true then ea else s.resvAddr } t) ∧
    (s.resv = true ∧ (s.cfg.scAddressCheck = true → s.resvAddr = ea) →
      ∃ t, exec (.scW rd rs1 rs2) s = .next t ∧ RegWrite rd 0#32 s t ∧ t.pc = s.pc + 4#32 ∧
        SameBeyondRegs (writeBytes 4 ea (s.readReg rs2) { s with resv := false }) t) ∧
    (¬ (s.resv = true ∧ (s.cfg.scAddressCheck = true → s.resvAddr = ea)) →
      ∃ t, exec (.scW rd rs1 rs2) s = .next t ∧ RegWrite rd 1#32 s t ∧ t.pc = s.pc + 4#32 ∧
        SameBeyondRegs { s with resv := false } t)

/-- R333 to R342: the nine AMOs. Rests on what the spec marks as its own: the decisions D5, D27, D29, the general
knowledge of R333 (log 16). -/
def Obligations.AmoResults : Prop :=
  (Encodes 0xF800707F#32 0x0800202F#32 (buildR .amoswapW) ∧ Encodes 0xF800707F#32 0x0000202F#32 (buildR .amoaddW) ∧
    Encodes 0xF800707F#32 0x2000202F#32 (buildR .amoxorW) ∧ Encodes 0xF800707F#32 0x6000202F#32 (buildR .amoandW) ∧
    Encodes 0xF800707F#32 0x4000202F#32 (buildR .amoorW) ∧ Encodes 0xF800707F#32 0x8000202F#32 (buildR .amominW) ∧
    Encodes 0xF800707F#32 0xA000202F#32 (buildR .amomaxW) ∧ Encodes 0xF800707F#32 0xC000202F#32 (buildR .amominuW) ∧
    Encodes 0xF800707F#32 0xE000202F#32 (buildR .amomaxuW)) ∧
  ∀ (rd rs1 rs2 : RegIdx) (s : State),
    let ea := s.readReg rs1
    let src := s.readReg rs2
    AmoResult (.amoswapW rd rs1 rs2) rd ea src (fun _ b => b) s ∧
    AmoResult (.amoaddW rd rs1 rs2) rd ea src (fun a b => BitVec.ofNat 32 (a.toNat + b.toNat)) s ∧
    AmoResult (.amoxorW rd rs1 rs2) rd ea src (fun a b => a ^^^ b) s ∧
    AmoResult (.amoandW rd rs1 rs2) rd ea src (fun a b => a &&& b) s ∧
    AmoResult (.amoorW rd rs1 rs2) rd ea src (fun a b => a ||| b) s ∧
    AmoResult (.amominW rd rs1 rs2) rd ea src (fun a b => if a.toInt ≤ b.toInt then a else b) s ∧
    AmoResult (.amomaxW rd rs1 rs2) rd ea src (fun a b => if b.toInt ≤ a.toInt then a else b) s ∧
    AmoResult (.amominuW rd rs1 rs2) rd ea src (fun a b => if a.toNat ≤ b.toNat then a else b) s ∧
    AmoResult (.amomaxuW rd rs1 rs2) rd ea src (fun a b => if b.toNat ≤ a.toNat then a else b) s

/-- R330, R343: "Only `lr.w` sets it and only `sc.w` clears it". No other instruction, and neither trap entry,
interrupt sampling nor the time source, changes the reservation; so a step that does not run an `sc.w` keeps a set
reservation. That a step fetches after the time source's answer is the model's choice (log 3). Rests on what the spec
marks as its own: the decision D30, the derivations of R343 (log 16). -/
def Obligations.OnlyLrAndScTouchTheReservation : Prop :=
  (∀ (i : Instr) (s t : State), touchesReservation i = false → exec i s = .next t →
    t.resv = s.resv ∧ t.resvAddr = s.resvAddr) ∧
  (∀ (s t : State), step s = .next t → s.resv = true →
    (∀ rd rs1 rs2, decodeWord (fetch (timeStep s)).1 ≠ .ok (.scW rd rs1 rs2)) → t.resv = true) ∧
  (∀ (s t : State), step s = .next t → s.resv = false →
    (∀ rd rs1, decodeWord (fetch (timeStep s)).1 ≠ .ok (.lrW rd rs1)) → t.resv = false)

/-! ## CSRs (10_state.md) -/

/-- R41: the default `CSR_SET` has 46 addresses, they are those the table names, with the table's access, minimum mode
and reset value; and at each address of the table the register it names is read: the very one that trap entry, trap
return and delegation use (the stored word, the view of it under its mask, or the parameter), for every file. Rests on
what the spec marks as its own: the decisions D1, D8, D10, D12, D13, D17, D19, D21, D38, D39, D40, D47, the general
knowledge of R41, R42, R47, R49, R50, R52, R53, R54, R57 (log 16). -/
def Obligations.DefaultCsrTable : Prop :=
  Config.default.csrSet.length = 46 ∧ Config.default.csrSet.Nodup ∧
  (∀ c ∈ Config.default.csrSet,
    (∀ a, csrReg c ≠ .other a) ∧
    csrMinMode c = (if c.toNat < 0x200 then .supervisor else .machine) ∧
    csrReadOnly c = decide (0xF00 ≤ c.toNat) ∧
    csrReadValue Config.default CsrFile.reset c = if c = 0x301#12 then 0x40141101#32 else 0#32) ∧
  ∀ (cfg : Config) (f : CsrFile),
    let read := csrReadValue cfg f
    read 0x100#12 = f.mstatus &&& 0x800DE133#32 ∧ read 0x104#12 = f.mie &&& 0x222#32 ∧ read 0x105#12 = f.stvec ∧
    read 0x106#12 = f.scounteren ∧ read 0x140#12 = f.sscratch ∧ read 0x141#12 = f.sepc ∧ read 0x142#12 = f.scause ∧
    read 0x143#12 = f.stval ∧ read 0x144#12 = f.mip &&& 0x222#32 ∧ read 0x180#12 = f.satp ∧
    read 0x300#12 = f.mstatus ∧ read 0x301#12 = cfg.misaValue ∧ read 0x302#12 = f.medeleg ∧
    read 0x303#12 = f.mideleg ∧ read 0x304#12 = f.mie ∧ read 0x305#12 = f.mtvec ∧ read 0x306#12 = f.mcounteren ∧
    read 0x340#12 = f.mscratch ∧ read 0x341#12 = f.mepc ∧ read 0x342#12 = f.mcause ∧ read 0x343#12 = f.mtval ∧
    read 0x344#12 = f.mip ∧ (∀ i : Fin 4, read (BitVec.ofNat 12 (0x3A0 + i.val)) = f.pmpcfg[i]) ∧
    (∀ i : Fin 16, read (BitVec.ofNat 12 (0x3B0 + i.val)) = f.pmpaddr[i]) ∧
    read 0xF11#12 = cfg.mvendorid ∧ read 0xF12#12 = cfg.marchid ∧ read 0xF13#12 = cfg.mimpid ∧
    read 0xF14#12 = cfg.mhartid

/-- R42 to R45: `CsrGet` and `CsrSet` succeed exactly when the address is in `CSR_SET`, the mode's number is at least
bits 9:8 of the address and, for a write, bits 11:10 are not both 1; a read changes nothing (it has no state to answer
with), a write changes the file by `writeValue` and nothing else. Rests on what the spec marks as its own: the general
knowledge of R42 (log 16). -/
def Obligations.CsrAccessorChecks : Prop :=
  ∀ (c : CsrAddr) (v : Word) (s : State),
    (c ∈ s.cfg.csrSet ∧ c.toNat / 2 ^ 8 % 2 ^ 2 ≤ s.mode.bits.toNat → csrGet c s = some (csrReadValue s.cfg s.csr c)) ∧
    (c ∉ s.cfg.csrSet ∨ s.mode.bits.toNat < c.toNat / 2 ^ 8 % 2 ^ 2 → csrGet c s = none) ∧
    (c ∈ s.cfg.csrSet ∧ c.toNat / 2 ^ 8 % 2 ^ 2 ≤ s.mode.bits.toNat ∧ c.toNat / 2 ^ 10 ≠ 3 →
      csrSet c v s = some { s with csr := csrWriteValue s.csr c v }) ∧
    (c ∉ s.cfg.csrSet ∨ s.mode.bits.toNat < c.toNat / 2 ^ 8 % 2 ^ 2 ∨ c.toNat / 2 ^ 10 = 3 → csrSet c v s = none)

/-- R48, R49, R54, R55, R57, R58: what a CSR reads after it was written: a raw register the value, a masked one or a
view the stored bits of it and the old bits elsewhere, `misa` its constant. Rests on what the spec marks as its own:
the decisions D10, D12, D13, D17, D19, D21, D38, D39, D40, D47, the general knowledge of R47, R49, R50, R52, R53, R54,
R57 (log 16). -/
def Obligations.CsrReadAfterWrite : Prop :=
  ∀ (cfg : Config) (f : CsrFile) (v : Word),
    (∀ c : CsrAddr, csrIsRaw (csrReg c) = true → csrReadValue cfg (csrWriteValue f c v) c = v) ∧
    csrReadValue cfg (csrWriteValue f 0x300#12 v) 0x300#12 = v &&& 0x807FF9BB#32 ∧
    csrReadValue cfg (csrWriteValue f 0x300#12 v) 0x100#12 = v &&& 0x800DE133#32 ∧
    csrReadValue cfg (csrWriteValue f 0x100#12 v) 0x100#12 = v &&& 0x800DE133#32 ∧
    (∀ k < 32, (csrReadValue cfg (csrWriteValue f 0x100#12 v) 0x300#12).getLsbD k =
      if k ∈ [0, 1, 4, 5, 8, 13, 14, 15, 16, 18, 19, 31] then v.getLsbD k else f.mstatus.getLsbD k) ∧
    (∀ k < 32, (csrReadValue cfg (csrWriteValue f 0x104#12 v) 0x304#12).getLsbD k =
      if k ∈ [1, 5, 9] then v.getLsbD k else f.mie.getLsbD k) ∧
    csrReadValue cfg (csrWriteValue f 0x104#12 v) 0x104#12 = v &&& 0x222#32 ∧
    csrReadValue cfg (csrWriteValue f 0x304#12 v) 0x104#12 = v &&& 0x222#32 ∧
    (∀ k < 32, (csrReadValue cfg (csrWriteValue f 0x344#12 v) 0x344#12).getLsbD k =
      if k ∈ [1, 5] then v.getLsbD k else f.mip.getLsbD k) ∧
    (∀ k < 32, (csrReadValue cfg (csrWriteValue f 0x144#12 v) 0x344#12).getLsbD k =
      if k = 1 then v.getLsbD k else f.mip.getLsbD k) ∧
    (∀ k < 32, (csrReadValue cfg f 0x144#12).getLsbD k = (decide (k ∈ [1, 5, 9]) && f.mip.getLsbD k)) ∧
    csrWriteValue f 0x301#12 v = f ∧ csrReadValue cfg f 0x301#12 = cfg.misaValue

/-- A write to one CSR leaves every CSR alone that does not show the same storage (R40, R46, R49, R54). The two range
over every address; that an address outside the table of R41 is one raw word of its own is the model's choice (log 7).
Rests on what the spec marks as its own: the decisions D12, D13, the general knowledge of R49, R54, the derivations of
R46 (log 16). -/
def Obligations.CsrWriteLeavesOthersAlone : Prop :=
  ∀ (cfg : Config) (f : CsrFile) (a b : CsrAddr) (v : Word),
    sharesStorage (csrReg a) (csrReg b) = false → csrReadValue cfg (csrWriteValue f a v) b = csrReadValue cfg f b

/-! ## System instructions (45_system.md) -/

/-- R350 to R353: CSRRW, CSRRS, CSRRC. The read's checks always apply, the write's where the form writes; where a
check fails, IllegalInstruction is taken and neither rd nor the CSR changes. Rests on what the spec marks as its own:
the decision D14, the general knowledge of R42, the derivations of R393 (log 16). -/
def Obligations.CsrRegisterFormResults : Prop :=
  (Encodes 0x0000707F#32 0x00001073#32 (buildCsr .csrrw) ∧ Encodes 0x0000707F#32 0x00002073#32 (buildCsr .csrrs) ∧
    Encodes 0x0000707F#32 0x00003073#32 (buildCsr .csrrc)) ∧
  ∀ (rd rs1 : RegIdx) (c : CsrAddr) (s : State),
    let readOk := c ∈ s.cfg.csrSet ∧ c.toNat / 2 ^ 8 % 2 ^ 2 ≤ s.mode.bits.toNat
    let writeOk := readOk ∧ c.toNat / 2 ^ 10 ≠ 3
    let writes := s.cfg.csrRegSetClrX0Writes = true ∨ rs1 ≠ 0
    let old := csrReadValue s.cfg s.csr c
    let src := s.readReg rs1
    (writeOk → CsrResult (.csrrw rd c rs1) rd old (csrWriteValue s.csr c src) s) ∧
    (¬ writeOk → Takes (.csrrw rd c rs1) .illegalInstruction s) ∧
    (writes → writeOk → CsrResult (.csrrs rd c rs1) rd old (csrWriteValue s.csr c (old ||| src)) s) ∧
    (¬ writes → readOk → CsrResult (.csrrs rd c rs1) rd old s.csr s) ∧
    (writes ∧ ¬ writeOk ∨ ¬ readOk → Takes (.csrrs rd c rs1) .illegalInstruction s) ∧
    (writes → writeOk → CsrResult (.csrrc rd c rs1) rd old (csrWriteValue s.csr c (old &&& ~~~src)) s) ∧
    (¬ writes → readOk → CsrResult (.csrrc rd c rs1) rd old s.csr s) ∧
    (writes ∧ ¬ writeOk ∨ ¬ readOk → Takes (.csrrc rd c rs1) .illegalInstruction s)

/-- R354 to R356: CSRRWI always writes; CSRRSI and CSRRCI write, and check the write, only when zimm is not 0. Rests
on what the spec marks as its own: the decision D14, the general knowledge of R42, the derivations of R393 (log 16).
-/
def Obligations.CsrImmediateFormResults : Prop :=
  (Encodes 0x0000707F#32 0x00005073#32 (buildCsrImm .csrrwi) ∧
    Encodes 0x0000707F#32 0x00006073#32 (buildCsrImm .csrrsi) ∧
    Encodes 0x0000707F#32 0x00007073#32 (buildCsrImm .csrrci)) ∧
  ∀ (rd : RegIdx) (z : BitVec 5) (c : CsrAddr) (s : State),
    let readOk := c ∈ s.cfg.csrSet ∧ c.toNat / 2 ^ 8 % 2 ^ 2 ≤ s.mode.bits.toNat
    let writeOk := readOk ∧ c.toNat / 2 ^ 10 ≠ 3
    let old := csrReadValue s.cfg s.csr c
    let src : Word := BitVec.ofNat 32 z.toNat
    (writeOk → CsrResult (.csrrwi rd c z) rd old (csrWriteValue s.csr c src) s) ∧
    (¬ writeOk → Takes (.csrrwi rd c z) .illegalInstruction s) ∧
    (z ≠ 0#5 → writeOk → CsrResult (.csrrsi rd c z) rd old (csrWriteValue s.csr c (old ||| src)) s) ∧
    (z = 0#5 → readOk → CsrResult (.csrrsi rd c z) rd old s.csr s) ∧
    (z ≠ 0#5 ∧ ¬ writeOk ∨ ¬ readOk → Takes (.csrrsi rd c z) .illegalInstruction s) ∧
    (z ≠ 0#5 → writeOk → CsrResult (.csrrci rd c z) rd old (csrWriteValue s.csr c (old &&& ~~~src)) s) ∧
    (z = 0#5 → readOk → CsrResult (.csrrci rd c z) rd old s.csr s) ∧
    (z ≠ 0#5 ∧ ¬ writeOk ∨ ¬ readOk → Takes (.csrrci rd c z) .illegalInstruction s)

/-- R362 ECALL and R364: the self-test exit, the environment call of the current mode, or a no-op, by the parameters.
R366 EBREAK: by `EBREAK_MODE`. Rests on what the spec marks as its own: the decisions D15, D24, D25, D26, D27, D41,
D48, the general knowledge of R362, R366, R398, the derivations of R393 (log 16). -/
def Obligations.EcallAndEbreakResults : Prop :=
  Encodes 0xFFF0707F#32 0x00000073#32 (fun _ => .ecall) ∧ Encodes 0xFFF0707F#32 0x00100073#32 (fun _ => .ebreak) ∧
  ∀ s : State,
    let a0 := s.readReg 10
    let next : Word := BitVec.ofNat 32 (s.pc.toNat + 4)
    (s.cfg.selfTest = true → a0 = 0#32 ∨ a0 = 42#32 →
      exec .ecall s = .next { s with run := .halted (.selfTestPass a0) }) ∧
    (s.cfg.selfTest = true → a0 ≠ 0#32 → a0 ≠ 42#32 →
      exec .ecall s = .next { s with run := .halted (.selfTestFail a0 (s.readReg s.cfg.selftestDiagReg)) }) ∧
    (s.cfg.selfTest = false → s.cfg.ecallTraps = true → Takes .ecall (.environmentCall s.mode) s) ∧
    (s.cfg.selfTest = false → s.cfg.ecallTraps = false → SetsPcOnly .ecall next s) ∧
    (s.cfg.ebreakMode = .nop → SetsPcOnly .ebreak next s) ∧
    (s.cfg.ebreakMode = .breakpoint → Takes .ebreak .breakpoint s) ∧
    (s.cfg.ebreakMode = .halt → exec .ebreak s = .next { s with run := .halted .ebreakHalt })

/-- R367 MRET: legal in M, and anywhere without `XRET_PRIV_CHECK`; the mode is what MPP held, MIE what MPIE held, MPIE
1 and MPP 0; pc is `mepc` as stored; nothing else changes. R368 SRET: legal above U, and anywhere without
`XRET_PRIV_CHECK`; the mode is what SPP held, SIE what SPIE held, SPIE 1 and SPP 0; pc is `sepc` as stored. Rests on
what the spec marks as its own: the decisions D9, D12, D23, D27, D38, the general knowledge of R47, the derivations of
R393 (log 16). -/
def Obligations.TrapReturnResults : Prop :=
  Encodes 0xFFF0707F#32 0x30200073#32 (fun _ => .mret) ∧ Encodes 0xFFF0707F#32 0x10200073#32 (fun _ => .sret) ∧
  ∀ s : State,
    (s.cfg.xretPrivCheck = true → s.mode ≠ .machine → Takes .mret .illegalInstruction s) ∧
    (s.cfg.xretPrivCheck = false ∨ s.mode = .machine →
      ∃ (m : Mode) (v : Word),
        exec .mret s = .next { s with pc := s.csr.mepc, mode := m, csr := { s.csr with mstatus := v } } ∧
        m.bits.toNat = s.csr.mstatus.toNat / 2 ^ 11 % 2 ^ 2 ∧
        ∀ k < 32, v.getLsbD k =
          if k = 3 then s.csr.mstatus.getLsbD 7 else if k = 7 then true else if k = 11 ∨ k = 12 then false
          else s.csr.mstatus.getLsbD k) ∧
    (s.cfg.xretPrivCheck = true → s.mode = .user → Takes .sret .illegalInstruction s) ∧
    (s.cfg.xretPrivCheck = false ∨ s.mode ≠ .user →
      ∃ v : Word,
        exec .sret s = .next
          { s with
            pc := s.csr.sepc, mode := if s.csr.mstatus.getLsbD 8 = true then .supervisor else .user,
            csr := { s.csr with mstatus := v } } ∧
        ∀ k < 32, v.getLsbD k =
          if k = 1 then s.csr.mstatus.getLsbD 5 else if k = 5 then true else if k = 8 then false
          else s.csr.mstatus.getLsbD k)

/-- R370 WFI: the device levels are copied into `mip`; then pc advances when any bit of `mip` is 1 and stays when none
is. In every mode. Rests on what the spec marks as its own: the decisions D21, D27, D37 (log 16). -/
def Obligations.WfiResult : Prop :=
  Encodes 0xFFF0707F#32 0x10500073#32 (fun _ => .wfi) ∧
  ∀ s : State,
    ((∃ k < 32, (updatePending s).csr.mip.getLsbD k = true) →
      exec .wfi s = .next { updatePending s with pc := BitVec.ofNat 32 (s.pc.toNat + 4) }) ∧
    ((∀ k < 32, (updatePending s).csr.mip.getLsbD k = false) → exec .wfi s = .next (updatePending s))

/-! ## Traps (60_exceptions.md) -/

/-- R401: the target mode of a trap. R398, R399, R403: the cause values. Rests on what the spec marks as its own: the
decisions D15, D19, the general knowledge of R398, R399, R401 (log 16). -/
def Obligations.TrapTargetAndCauseValues : Prop :=
  (∀ (c : TrapCause) (s : State),
    let delegated := match c with
      | .exception e => s.csr.medeleg.getLsbD e.code = true
      | .interrupt i => s.csr.mideleg.getLsbD i.code = true
    (delegated ∧ (s.cfg.delegFromM = true ∨ s.mode = .user ∨ s.mode = .supervisor) → trapTarget c s = .supervisor) ∧
    (¬ (delegated ∧ (s.cfg.delegFromM = true ∨ s.mode = .user ∨ s.mode = .supervisor)) → trapTarget c s = .machine)) ∧
  (∀ e : Exception, (TrapCause.exception e).word.toNat = e.code ∧ e.code < 16) ∧
  (∀ i : Interrupt, (TrapCause.interrupt i).word.toNat = 2 ^ 31 + i.code ∧ i.code < 16) ∧
  Exception.code .illegalInstruction = 2 ∧ Exception.code .breakpoint = 3 ∧
  Exception.code (.environmentCall .user) = 8 ∧ Exception.code (.environmentCall .supervisor) = 9 ∧
  Exception.code (.environmentCall .hypervisor) = 10 ∧ Exception.code (.environmentCall .machine) = 11 ∧
  Interrupt.code .supervisorSoftware = 1 ∧ Interrupt.code .machineSoftware = 3 ∧
  Interrupt.code .supervisorTimer = 5 ∧ Interrupt.code .machineTimer = 7 ∧
  Interrupt.code .supervisorExternal = 9 ∧ Interrupt.code .machineExternal = 11

/-- R400, the whole of trap entry: the saved pc, the previous mode, with `TRAP_STACKS_IE` the interrupt enable, pc at
the base of the vector, the new mode, the cause, and for an interrupt its pending bit; "Nothing else changes". The
stacking is what "this spec adds" (R404, D16). Rests on what the spec marks as its own: the decisions D9, D12, D16,
D17, D18, D38, D39, D42, D43, the general knowledge of R47, R404 (log 16). -/
def Obligations.TrapEntry : Prop :=
  ∀ (c : TrapCause) (epc : Word) (s : State),
    ∃ v p : Word,
      (trapTarget c s = .machine ∨ trapTarget c s = .supervisor) ∧
      (∀ k < 32, p.getLsbD k =
        match c with
        | .exception _ => s.csr.mip.getLsbD k
        | .interrupt i => if k = i.code then false else s.csr.mip.getLsbD k) ∧
      (trapTarget c s = .machine →
        trapEntry c epc s =
          { s with
            pc := BitVec.ofNat 32 (s.csr.mtvec.toNat / 4 * 4), mode := .machine,
            csr := { s.csr with mepc := epc, mcause := c.word, mstatus := v, mip := p } } ∧
        ∀ k < 32, v.getLsbD k =
          if k = 11 then s.mode.bits.getLsbD 0 else if k = 12 then s.mode.bits.getLsbD 1
          else if k = 7 ∧ s.cfg.trapStacksIe = true then s.csr.mstatus.getLsbD 3
          else if k = 3 ∧ s.cfg.trapStacksIe = true then false else s.csr.mstatus.getLsbD k) ∧
      (trapTarget c s = .supervisor →
        trapEntry c epc s =
          { s with
            pc := BitVec.ofNat 32 (s.csr.stvec.toNat / 4 * 4), mode := .supervisor,
            csr := { s.csr with sepc := epc, scause := c.word, mstatus := v, mip := p } } ∧
        ∀ k < 32, v.getLsbD k =
          if k = 8 then decide (s.mode ≠ .user)
          else if k = 5 ∧ s.cfg.trapStacksIe = true then s.csr.mstatus.getLsbD 1
          else if k = 1 ∧ s.cfg.trapStacksIe = true then false else s.csr.mstatus.getLsbD k)

/-- R421, R433, R434, R450: the device levels in `mip`; SSIP, STIP and every other bit stay; nothing but `mip` and the
PLIC's pending bits changes; the one PLIC source with a level is the UART's. Rests on what the spec marks as its own:
the decisions D13, D21, D32, D33, D34, the general knowledge of R53, R433 (log 16). -/
def Obligations.PendingBitsFollowTheDevices : Prop :=
  ∀ s : State,
    ∃ (p : Plic) (v : Word), updatePending s = { s with plic := p, csr := { s.csr with mip := v } } ∧
      p = s.plic.gateways s.cfg.plicNSources (plicLevel s) ∧
      (∀ x, plicLevel s x = true ↔
        x = s.cfg.uartIrq ∧ s.uart.ier.getLsbD 0 = true ∧ s.uart.lsr.getLsbD 0 = true) ∧
      ∀ k < 32, v.getLsbD k =
        if k = 3 then s.clint.msip
        else if k = 7 then decide (s.clint.mtimecmp.toNat ≤ s.clint.mtime.toNat)
        else if k = 9 then p.output s.cfg.plicNSources
        else if k = 11 then false
        else s.csr.mip.getLsbD k

/-- R422: the global enable of an interrupt, by the numbers of its target mode and of the current mode. Rests on what
the spec marks as its own: the decisions D9, D12, D20, D38, the general knowledge of R47, R422 (log 16). -/
def Obligations.GlobalEnableRule : Prop :=
  ∀ (i : Interrupt) (s : State),
    globallyEnabled i s = true ↔
      (s.mode.bits.toNat < (trapTarget (.interrupt i) s).bits.toNat ∨
        (s.mode = .machine ∧ trapTarget (.interrupt i) s = .machine ∧ s.csr.mstatus.getLsbD 3 = true) ∨
        (s.mode = .supervisor ∧ trapTarget (.interrupt i) s = .supervisor ∧ s.csr.mstatus.getLsbD 1 = true))

/-- R420, R423, R424: at a sampling point the levels are copied into `mip`; then the first interrupt in the order 11,
3, 7, 9, 1, 5 that is pending, enabled in `mie` and globally enabled is taken, with the address of the next
instruction as its saved pc, and only that one; none is taken when there is none. Rests on what the spec marks as its
own: the decisions D13, D15, D18, D20, D21, D22, D39, the general knowledge of R52, R53, R399, R422, R423, the
derivations of R424 (log 16). -/
def Obligations.SamplingTakesTheFirstReadyInterrupt : Prop :=
  ∀ s : State,
    let u := updatePending s
    let ready := fun i : Interrupt =>
      u.csr.mip.getLsbD i.code = true ∧ u.csr.mie.getLsbD i.code = true ∧ globallyEnabled i u = true
    let rank := fun i : Interrupt => [11, 3, 7, 9, 1, 5].idxOf i.code
    (∀ i, ready i → (∀ j, ready j → rank i ≤ rank j) → sampleInterrupts s = trapEntry (.interrupt i) u.pc u) ∧
    ((∀ i, ¬ ready i) → sampleInterrupts s = u)

/-- R425: with `TRAP_STACKS_IE`, an exception taken to M leaves every interrupt disabled at the sampling point of its
step, and one taken to S leaves only M-level interrupts enabled; an interrupt taken then saves the trap vector. Rests
on what the spec marks as its own: the decisions D16, D20, D22, D42, the general knowledge of R404, R422, the
derivations of R409, R425 (log 16). -/
def Obligations.ExceptionBlocksInterruptsOfItsTarget : Prop :=
  ∀ (e : Exception) (epc : Word) (s : State), s.cfg.trapStacksIe = true →
    let t := trapEntry (.exception e) epc s
    (trapTarget (.exception e) s = .machine → sampleInterrupts t = updatePending t) ∧
    (trapTarget (.exception e) s = .supervisor →
      sampleInterrupts t = updatePending t ∨
      ∃ i, trapTarget (.interrupt i) (updatePending t) = .machine ∧
        sampleInterrupts t =
          trapEntry (.interrupt i) (BitVec.ofNat 32 (s.csr.stvec.toNat / 4 * 4)) (updatePending t))

/-! ## Whole-machine rules -/

/-- R395 and R36: the mode is "mutated only by trap entry/return instructions and trap delivery". An instruction that
is neither `mret` nor `sret` leaves it as it is or takes an exception; trap entry sets it to its target, M or S;
`mret` sets it to MPP and `sret` to SPP, unless they take an exception; the interrupt sampling keeps it or takes an
interrupt; no CSR write changes it; reset sets it to M. So a step enters mode 2 only by an `mret` with MPP = 2 (R36,
R394); that the step's instruction is the one fetched after the time source's answer is the model's choice (log 3).
Rests on what the spec marks as its own: the decisions D8, D9, D12, D22, D23, D38, the general knowledge of R47, the
derivations of R393 (log 16). -/
def Obligations.ModeChangesOnlyByTrapAndReturn : Prop :=
  (∀ (i : Instr) (s t : State), isTrapReturn i = false → exec i s = .next t →
    t.mode = s.mode ∨ ∃ e, t = trapEntry (.exception e) s.pc s) ∧
  (∀ (c : TrapCause) (epc : Word) (s : State),
    (trapEntry c epc s).mode = trapTarget c s ∧ (trapTarget c s = .machine ∨ trapTarget c s = .supervisor)) ∧
  (∀ s t : State, exec .mret s = .next t →
    t.mode.bits.toNat = s.csr.mstatus.toNat / 2 ^ 11 % 2 ^ 2 ∨
      t = trapEntry (.exception .illegalInstruction) s.pc s) ∧
  (∀ s t : State, exec .sret s = .next t →
    t.mode.bits.toNat = s.csr.mstatus.toNat / 2 ^ 8 % 2 ∨ t = trapEntry (.exception .illegalInstruction) s.pc s) ∧
  (∀ s : State, (sampleInterrupts s).mode = s.mode ∨
    ∃ i, sampleInterrupts s = trapEntry (.interrupt i) s.pc (updatePending s)) ∧
  (∀ (c : CsrAddr) (v : Word) (s t : State), csrSet c v s = some t → t.mode = s.mode) ∧
  (∀ cfg : Config, (State.resetWith cfg).mode = .machine) ∧
  (∀ (s t : State), step s = .next t → t.mode = .hypervisor → s.mode ≠ .hypervisor →
    decodeWord (fetch (timeStep s)).1 = .ok .mret ∧ s.csr.mstatus.toNat / 2 ^ 11 % 2 ^ 2 = 2)

/-- R394 with R42 to R45: a step that starts below M changes none of `medeleg`, `mideleg`, `mtvec`, `mscratch`,
`mcounteren`, `mtval`, `pmpcfg0`-`3`, `pmpaddr0`-`15`, and of `mie` only the bits `sie` shows; a step that starts in U
changes none of `stvec`, `scounteren`, `sscratch`, `stval`, `satp` and no bit of `mie` either. Rests on what the spec
marks as its own: the decisions D13, D14, D17, D23, the general knowledge of R42, R52, R54, the derivations of R46
(log 16). -/
def Obligations.LowerModesCannotConfigureHigherOnes : Prop :=
  ∀ (s t : State), step s = .next t →
    (s.mode ≠ .machine →
      t.csr.medeleg = s.csr.medeleg ∧ t.csr.mideleg = s.csr.mideleg ∧ t.csr.mtvec = s.csr.mtvec ∧
      t.csr.mscratch = s.csr.mscratch ∧ t.csr.mcounteren = s.csr.mcounteren ∧ t.csr.mtval = s.csr.mtval ∧
      t.csr.pmpcfg = s.csr.pmpcfg ∧ t.csr.pmpaddr = s.csr.pmpaddr ∧
      ∀ k < 32, k ≠ 1 → k ≠ 5 → k ≠ 9 → t.csr.mie.getLsbD k = s.csr.mie.getLsbD k) ∧
    (s.mode = .user →
      t.csr.stvec = s.csr.stvec ∧ t.csr.scounteren = s.csr.scounteren ∧ t.csr.sscratch = s.csr.sscratch ∧
      t.csr.stval = s.csr.stval ∧ t.csr.satp = s.csr.satp ∧ t.csr.mie = s.csr.mie)

/-- Every step keeps the invariant: x0's slot is 0, RAM, the pixels and the PLIC's maps are canonical, the reserved
bits of `mstatus` (R47), `mip` (R53) and `lsr` (R113) read as the spec says, and the PLIC lists only sources that
exist (R445, R451). That x0 has a slot is the model's choice (log 13), and the canonical forms are its representation.
Rests on what the spec marks as its own: the decisions D12, D13, D21, D31, D33, D38, the general knowledge of R47,
R53, R113, R451 (log 16). -/
def Obligations.EveryStepKeepsTheInvariant : Prop :=
  ∀ s t : State, s.Inv → step s = .next t → t.Inv

/-- R470: the state after reset meets the invariant, whatever the parameters. That x0 has a slot is the model's choice
(log 13), and the canonical forms are its representation. Rests on what the spec marks as its own: the decisions D8,
D12, D13, D21, D31, D33, D38, the general knowledge of R47, R53, R113 (log 16). -/
def Obligations.ResetMeetsTheInvariant : Prop :=
  ∀ cfg : Config, (State.resetWith cfg).Inv

/-- R10, R471: no step changes a parameter; R116, R120: the bytes already sent stay sent, in their order, and only an
instruction that stores sends one. That State holds the parameters (log 1), and the output as a list (log 19), is the
model's choice. Rests on what the spec marks as its own: the derivations of R111 (log 16). -/
def Obligations.ParametersStayAndOutputGrows : Prop :=
  (∀ s t : State, step s = .next t → t.cfg = s.cfg ∧ ∃ more, t.uart.output = s.uart.output ++ more) ∧
  (∀ (i : Instr) (s t : State), writesMemory i = false → exec i s = .next t → t.uart.output = s.uart.output)

/-- R470, R472, R473: the state after reset, for every value of the parameters; with `mie` all 0 no interrupt is
taken. That a word of the bank outside the table of R41 reads 0 too is the model's choice (log 7). Rests on what the
spec marks as its own: the decisions D2, D4, D8, D9, D10, D22, the general knowledge of R41 (log 16). -/
def Obligations.ResetState : Prop :=
  (∀ cfg : Config,
    let s := State.resetWith cfg
    (∀ r, s.readReg r = 0#32) ∧ s.pc = cfg.resetPc ∧ s.mode = .machine ∧ s.run = .running ∧
    (∀ c : CsrAddr, csrReadValue cfg s.csr c =
      if c = 0x301#12 then cfg.misaValue else if c = 0xF11#12 then cfg.mvendorid else if c = 0xF12#12 then cfg.marchid
      else if c = 0xF13#12 then cfg.mimpid else if c = 0xF14#12 then cfg.mhartid else 0#32) ∧
    s.resv = false ∧ s.resvAddr = 0#32 ∧ (∀ a, s.mem.read a = 0#8) ∧
    s.uart.rbr = 0#8 ∧ s.uart.ier = 0#8 ∧ s.uart.fcr = 0#8 ∧ s.uart.lcr = 0#8 ∧ s.uart.mcr = 0#8 ∧ s.uart.msr = 0#8 ∧
    s.uart.scr = 0#8 ∧ s.uart.div0 = 0#8 ∧ s.uart.div1 = 0#8 ∧ s.uart.div2 = 0#8 ∧ s.uart.lsr = 0x60#8 ∧
    s.uart.output = [] ∧ (∀ k, pixel s.fb k = 0#32) ∧
    s.clint.msip = false ∧ s.clint.mtime = 0#64 ∧ s.clint.mtimecmp.toNat = 2 ^ 64 - 1 ∧
    (∀ k, Sparse.get s.plic.priority k = 0#32 ∧ bitAt s.plic.pending k = false ∧ bitAt s.plic.enable k = false ∧
      bitAt s.plic.inService k = false) ∧ s.plic.threshold = 0#32 ∧ s.plic.claimLatch = 0#32) ∧
  (∀ s : State, s.csr.mie = 0#32 → sampleInterrupts s = updatePending s) ∧
  State.reset = State.resetWith Config.default ∧ State.reset.pc = 0x80000000#32

/-- R474: an image that lies in RAM is written there and nothing else changes. "a model may reject an image that
overlaps a window": that `loadImage` does reject it, and one with an address of 2^32 or more, is the model's choice
(log 21). The canonical form of RAM is the premise. Rests on what the spec marks as its own: the decisions D3, D4 (log
16). -/
def Obligations.ImageIsLoadedIntoRam : Prop :=
  ∀ (image : List Host.Cell) (s : State), s.mem.wf = true →
    ((∀ e ∈ image, e.1 < 2 ^ 32 ∧ route s.cfg (BitVec.ofNat 32 e.1) = .ram) →
      (image.map Prod.fst).Nodup →
      ∃ m : Memory, loadImage image s = some { s with mem := m } ∧ m.wf = true ∧
        (∀ e ∈ image, m.read (BitVec.ofNat 32 e.1) = e.2) ∧
        (∀ a : Word, a.toNat ∉ image.map Prod.fst → m.read a = s.mem.read a)) ∧
    ((∃ e ∈ image, ¬ (e.1 < 2 ^ 32 ∧ route s.cfg (BitVec.ofNat 32 e.1) = .ram)) → loadImage image s = none)

/-- The host's placing of one instruction: where pc to pc + 3 lie in RAM, the next fetch reads the placed word and
changes nothing (log 11). Rests on what the spec marks as its own: the decisions D3, D4, D5, D46, the derivations of
R106 (log 16). -/
def Obligations.PlacedWordIsFetched : Prop :=
  ∀ (s : State) (w : Nat), s.mem.wf = true → InRam s.cfg s.pc 4 →
    fetch (s.withFetchWord 32 w) = (BitVec.ofNat 32 w, s.withFetchWord 32 w)

/-! ## The bus and the devices (20_memory.md, 60_exceptions.md) -/

/-- R101, R103 `(W, o) := route(a); return W.readByte(o)` and R104, for a configuration the spec admits (the windows
are disjoint, and R452's ids below 256): an address in a window goes to that device with its offset in the window,
every other one to RAM; the byte read at it is the device's (or RAM's) byte at that offset, with that device's side
effect and no other, and the byte written changes that device (or that RAM byte) alone. That the default parameters
are such a configuration rests on the model's choice of FB_BASE, FB_WIDTH and FB_HEIGHT (log 2). Rests on what the
spec marks as its own: the decisions D3, D4, D5, D33 (log 16). -/
def Obligations.DecoderRoutesByWindow : Prop :=
  Config.default.valid = true ∧
  ∀ (s : State) (a : Word) (b : Byte), s.cfg.valid = true →
    let c := s.cfg
    let inside := fun (base : Word) (size : Nat) => base.toNat ≤ a.toNat ∧ a.toNat < base.toNat + size
    (inside c.clintBase c.clintSize →
      let o := a.toNat - c.clintBase.toNat
      route c a = .clint o ∧ busReadByte a s = (s.clint.readByte o, s) ∧
      busWriteByte a b s = { s with clint := s.clint.writeByte o b }) ∧
    (inside c.plicBase c.plicSize →
      let o := a.toNat - c.plicBase.toNat
      let r := s.plic.readByte c.plicNSources c.plicCtx o
      route c a = .plic o ∧ busReadByte a s = (r.1, { s with plic := r.2 }) ∧
      busWriteByte a b s = { s with plic := s.plic.writeByte c.plicNSources c.plicCtx o b }) ∧
    (inside c.uartBase c.uartSize →
      let o := a.toNat - c.uartBase.toNat
      let r := s.uart.readByte o
      route c a = .uart o ∧ busReadByte a s = (r.1, { s with uart := r.2 }) ∧
      busWriteByte a b s = { s with uart := s.uart.writeByte o b }) ∧
    (inside c.fbBase (c.fbWidth * c.fbHeight * 4) →
      let o := a.toNat - c.fbBase.toNat
      route c a = .fb o ∧ busReadByte a s = (fbReadByte s.fb o, s) ∧
      busWriteByte a b s = { s with fb := fbWriteByte s.fb o b }) ∧
    (¬ inside c.clintBase c.clintSize → ¬ inside c.plicBase c.plicSize → ¬ inside c.uartBase c.uartSize →
      ¬ inside c.fbBase (c.fbWidth * c.fbHeight * 4) →
      route c a = .ram ∧ busReadByte a s = (s.mem.read a, s) ∧
      busWriteByte a b s = { s with mem := s.mem.write a b })

/-- R114 to R119: the UART's registers, by byte offset. That the poll's answers come from a list, and beyond it are
free values, whatever they are, is the model's choice (log 4), and so is that the output is a list (log 19). Rests on
what the spec marks as its own: the decisions D31, D32, D44, the general knowledge of R113, R114, R117 (log 16). -/
def Obligations.UartRegisterEffects : Prop :=
  ∀ (u : Uart) (b : Byte),
    (u.lcr.getLsbD 7 = false →
      (∃ l : Byte, u.readByte 0 = (u.rbr, { u with lsr := l }) ∧
        ∀ k < 8, l.getLsbD k = if k = 0 then false else u.lsr.getLsbD k) ∧
      (∃ l : Byte, u.writeByte 0 b = { u with output := u.output ++ [b], lsr := l } ∧
        ∀ k < 8, l.getLsbD k = if k = 5 ∨ k = 6 then true else u.lsr.getLsbD k) ∧
      u.readByte 1 = (u.ier, u) ∧ u.writeByte 1 b = { u with ier := b } ∧
      u.readByte 2 = (if u.ier.getLsbD 0 = true ∧ u.lsr.getLsbD 0 = true then 0x04#8 else 0x01#8, u) ∧
      u.writeByte 2 b = { u with fcr := b }) ∧
    (u.lcr.getLsbD 7 = true →
      u.readByte 0 = (u.div0, u) ∧ u.readByte 1 = (u.div1, u) ∧ u.readByte 2 = (u.div2, u) ∧
      u.writeByte 0 b = { u with div0 := b } ∧ u.writeByte 1 b = { u with div1 := b } ∧
      u.writeByte 2 b = { u with div2 := b }) ∧
    (∃ (r : Option Byte) (i : Oracle (Option Byte)),
      (u.input.next = [] → r = Config.freeInput u.input.count ∧ i = ⟨[], u.input.count + 1⟩) ∧
      (∀ a rest, u.input.next = a :: rest → r = a ∧ i = ⟨rest, u.input.count⟩) ∧
      (r = none → u.readByte 5 = (u.lsr, { u with input := i })) ∧
      (∀ c, r = some c →
        ∃ l : Byte, u.readByte 5 = (l, { u with input := i, rbr := c, lsr := l }) ∧
          ∀ k < 8, l.getLsbD k = if k = 0 then true else u.lsr.getLsbD k)) ∧
    u.writeByte 5 b = u ∧
    u.readByte 3 = (u.lcr, u) ∧ u.readByte 4 = (u.mcr, u) ∧ u.readByte 6 = (u.msr, u) ∧ u.readByte 7 = (u.scr, u) ∧
    u.writeByte 3 b = { u with lcr := b } ∧ u.writeByte 4 b = { u with mcr := b } ∧
    u.writeByte 6 b = { u with msr := b } ∧ u.writeByte 7 b = { u with scr := b } ∧
    (∀ o, 8 ≤ o → u.readByte o = (0#8, u) ∧ u.writeByte o b = u)

/-- R136: a byte written to the framebuffer reads back, every other byte stays, and byte `k` of a pixel is bits `8k+7
: 8k` of it. The canonical form of the pixels is the premise. Rests on what the spec marks as its own: the decision
D35, the general knowledge of R135 (log 16). -/
def Obligations.FramebufferBytes : Prop :=
  ∀ (fb : Sparse 32) (o : Nat) (b : Byte), Sparse.wf fb = true →
    (fbReadByte fb o).toNat = (pixel fb (o / 4)).toNat / 2 ^ (8 * (o % 4)) % 2 ^ 8 ∧
    fbReadByte (fbWriteByte fb o b) o = b ∧
    (∀ x, x ≠ o → fbReadByte (fbWriteByte fb o b) x = fbReadByte fb x) ∧
    Sparse.wf (fbWriteByte fb o b) = true

/-- R432: the CLINT's bytes. Rests on what the spec marks as its own: the decisions D7, D34, the general knowledge of
R431 (log 16). -/
def Obligations.ClintBytes : Prop :=
  ∀ (c : Clint) (o : Nat) (b : Byte),
    (c.readByte o).toNat =
      (if o = 0 then c.msip.toNat
        else if 0x4000 ≤ o ∧ o < 0x4008 then c.mtimecmp.toNat / 2 ^ (8 * (o - 0x4000)) % 2 ^ 8
        else if 0xBFF8 ≤ o ∧ o < 0xC000 then c.mtime.toNat / 2 ^ (8 * (o - 0xBFF8)) % 2 ^ 8
        else 0) ∧
    (c.writeByte o b).msip = (if o = 0 then b.getLsbD 0 else c.msip) ∧
    (∀ k < 64, (c.writeByte o b).mtimecmp.getLsbD k =
      if 0x4000 ≤ o ∧ o < 0x4008 ∧ k / 8 = o - 0x4000 then b.getLsbD (k % 8) else c.mtimecmp.getLsbD k) ∧
    (∀ k < 64, (c.writeByte o b).mtime.getLsbD k =
      if 0xBFF8 ≤ o ∧ o < 0xC000 ∧ k / 8 = o - 0xBFF8 then b.getLsbD (k % 8) else c.mtime.getLsbD k)

/-- R446 and R447: the PLIC's plain registers by byte, for numbers of sources and contexts whose rows do not overlap:
the priorities, the pending words (read-only), the enable words, the threshold; the claim/complete register, whose
bytes are the claim and the completion of R451 and R452; and every offset outside these rows, which reads 0 and
ignores writes (R112). The bounds are those under which the rows do not overlap (log 12). Rests on what the spec marks
as its own: the decisions D7, D33, the general knowledge of R446, R451 (log 16). -/
def Obligations.PlicRegisterBytes : Prop :=
  ∀ (p : Plic) (n ctx : Nat) (b : Byte), n ≤ 1024 → ctx < 15872 → Sparse.wf p.priority = true →
    Sparse.wf p.enable = true →
    (∀ s k, 1 ≤ s → s < n → k < 4 →
      p.readByte n ctx (4 * s + k) = (BitVec.ofNat 8 ((Sparse.get p.priority s).toNat / 2 ^ (8 * k)), p) ∧
      ∃ m : Sparse 32, p.writeByte n ctx (4 * s + k) b = { p with priority := m } ∧
        (∀ x, x ≠ s → Sparse.get m x = Sparse.get p.priority x) ∧
        ∀ j < 32, (Sparse.get m s).getLsbD j =
          if j / 8 = k then b.getLsbD (j % 8) else (Sparse.get p.priority s).getLsbD j) ∧
    (∀ k < 4, 1 ≤ n → p.readByte n ctx k = (0#8, p) ∧ p.writeByte n ctx k b = p) ∧
    (∀ k, 8 * k < n →
      p.writeByte n ctx (0x1000 + k) b = p ∧
      (p.readByte n ctx (0x1000 + k)).2 = p ∧ (p.readByte n ctx (0x2000 + 0x80 * ctx + k)).2 = p ∧
      (∀ j < 8, (p.readByte n ctx (0x1000 + k)).1.getLsbD j =
        (decide (1 ≤ 8 * k + j ∧ 8 * k + j < n) && bitAt p.pending (8 * k + j))) ∧
      (∀ j < 8, (p.readByte n ctx (0x2000 + 0x80 * ctx + k)).1.getLsbD j =
        (decide (1 ≤ 8 * k + j ∧ 8 * k + j < n) && bitAt p.enable (8 * k + j))) ∧
      ∃ m : Sparse 1, p.writeByte n ctx (0x2000 + 0x80 * ctx + k) b = { p with enable := m } ∧
        ∀ x, bitAt m x = if x / 8 = k ∧ 1 ≤ x ∧ x < n then b.getLsbD (x % 8) else bitAt p.enable x) ∧
    (∀ k < 4,
      p.readByte n ctx (0x200000 + 0x1000 * ctx + k) = (BitVec.ofNat 8 (p.threshold.toNat / 2 ^ (8 * k)), p) ∧
      ∃ v : Word, p.writeByte n ctx (0x200000 + 0x1000 * ctx + k) b = { p with threshold := v } ∧
        ∀ j < 32, v.getLsbD j = if j / 8 = k then b.getLsbD (j % 8) else p.threshold.getLsbD j) ∧
    (∀ lane < 4,
      p.readByte n ctx (0x200004 + 0x1000 * ctx + lane) = p.claimRead n lane ∧
      p.writeByte n ctx (0x200004 + 0x1000 * ctx + lane) b = p.completeWrite n lane b) ∧
    (∀ o, 4 * n ≤ o →
      (o < 0x1000 ∨ 0x1000 + (n + 7) / 8 ≤ o) →
      (o < 0x2000 + 0x80 * ctx ∨ 0x2000 + 0x80 * ctx + (n + 7) / 8 ≤ o) →
      (o < 0x200000 + 0x1000 * ctx ∨ 0x200000 + 0x1000 * ctx + 8 ≤ o) →
      p.readByte n ctx o = (0#8, p) ∧ p.writeByte n ctx o b = p)

/-- R451: the claim. The source taken is the claimable one of highest priority, the smallest among equals; with none
claimable the id is 0; lanes 1 to 3 read the latch and claim nothing. The canonical form of the bit sets is the
premise. Rests on what the spec marks as its own: the decision D33, the general knowledge of R451, the derivations of
R448 (log 16). -/
def Obligations.PlicClaimTakesTheHighestPriority : Prop :=
  ∀ (p : Plic) (n : Nat), Sparse.wf p.pending = true → Sparse.wf p.inService = true →
    let claimable := fun s => 1 ≤ s ∧ s < n ∧ bitAt p.pending s = true ∧ bitAt p.enable s = true ∧
      p.threshold.toNat < (Sparse.get p.priority s).toNat
    (∀ id, claimable id →
      (∀ s, claimable s → (Sparse.get p.priority s).toNat < (Sparse.get p.priority id).toNat ∨
        (Sparse.get p.priority s).toNat = (Sparse.get p.priority id).toNat ∧ id ≤ s) →
      ∃ m k : Sparse 1,
        p.claimRead n 0 =
          (BitVec.ofNat 8 id,
            { p with pending := m, inService := k, claimLatch := BitVec.ofNat 32 id }) ∧
        (∀ x, bitAt m x = if x = id then false else bitAt p.pending x) ∧
        (∀ x, bitAt k x = if x = id then true else bitAt p.inService x)) ∧
    ((∀ s, ¬ claimable s) → p.claimRead n 0 = (0#8, { p with claimLatch := 0#32 })) ∧
    (∀ lane, 1 ≤ lane → lane < 4 →
      p.claimRead n lane = (BitVec.ofNat 8 (p.claimLatch.toNat / 2 ^ (8 * lane)), p))

/-- R452 to R454: completion, the gateways and the output. The canonical form of the bit sets is the premise. Rests on
what the spec marks as its own: the decisions D21, D33 (log 16). -/
def Obligations.PlicCompletionGatewaysAndOutput : Prop :=
  ∀ (p : Plic) (n : Nat), Sparse.wf p.pending = true → Sparse.wf p.inService = true →
    (∀ b : Byte, 1 ≤ b.toNat → b.toNat < n →
      ∃ k : Sparse 1, p.completeWrite n 0 b = { p with inService := k } ∧
        ∀ x, bitAt k x = if x = b.toNat then false else bitAt p.inService x) ∧
    (∀ (lane : Nat) (b : Byte), lane ≠ 0 ∨ b.toNat = 0 ∨ n ≤ b.toNat → p.completeWrite n lane b = p) ∧
    (∀ level : Nat → Bool,
      ∃ m : Sparse 1, p.gateways n level = { p with pending := m } ∧
        ∀ x, bitAt m x =
          (bitAt p.pending x || (decide (1 ≤ x ∧ x < n) && level x && !bitAt p.inService x))) ∧
    (p.output n = true ↔ ∃ s, 1 ≤ s ∧ s < n ∧ bitAt p.pending s = true ∧ bitAt p.enable s = true ∧
      p.threshold.toNat < (Sparse.get p.priority s).toNat)
end

