-- ==== Sys2Proof/Laws/Bits.lean ====
section
/-!
SUPPORT. Sys2Proof/Laws/Bits.lean: what each bit of a changed field is, and bytes of registers.
-/

namespace Sys2Proof.Machine

/-- Bit `i` of a register whose field of `n` bits from `lo` up was replaced by `x`. -/
theorem getLsbD_insertBits {m n : Nat} (v : BitVec m) (lo : Nat) (x : BitVec n) (i : Nat) :
    (insertBits v lo x).getLsbD i =
      if i < m ∧ lo ≤ i ∧ i < lo + n then x.getLsbD (i - lo) else v.getLsbD i := by
  simp only [insertBits, BitVec.getLsbD_or, BitVec.getLsbD_and, BitVec.getLsbD_not, BitVec.getLsbD_shiftLeft,
    BitVec.getLsbD_setWidth, BitVec.getLsbD_allOnes]
  by_cases hm : i < m
  · by_cases hlo : i < lo
    · have : ¬ lo ≤ i := by omega
      simp [hm, hlo, this]
    · have hle : lo ≤ i := by omega
      have hsub : i - lo < m := by omega
      by_cases hn : i < lo + n
      · have : i - lo < n := by omega
        simp [hm, hlo, hle, hsub, hn, this]
      · have h2 : ¬ i - lo < n := by omega
        have h3 : x.getLsbD (i - lo) = false := BitVec.getLsbD_of_ge _ _ (by omega)
        simp [hm, hlo, hle, hsub, hn, h2, h3]
  · have : v.getLsbD i = false := BitVec.getLsbD_of_ge _ _ (by omega)
    simp [hm, this]

/-- Bit `i` of a register whose bit `j` was set to `b`. -/
theorem getLsbD_setBit {m : Nat} (v : BitVec m) (j : Nat) (b : Bool) (i : Nat) :
    (setBit v j b).getLsbD i = if i = j ∧ j < m then b else v.getLsbD i := by
  unfold setBit
  rw [getLsbD_insertBits]
  by_cases h : i = j ∧ j < m
  · obtain ⟨rfl, hm⟩ := h
    simp [hm]
  · have : ¬ (i < m ∧ j ≤ i ∧ i < j + 1) := by omega
    rw [if_neg h, if_neg this]

/-- Bit `i` of `(old & ~mask) | (new & mask)`. -/
theorem getLsbD_mergeMask {m : Nat} (mask old new : BitVec m) (i : Nat) :
    (mergeMask mask old new).getLsbD i = if mask.getLsbD i then new.getLsbD i else old.getLsbD i := by
  simp only [mergeMask, BitVec.getLsbD_or, BitVec.getLsbD_and, BitVec.getLsbD_not]
  by_cases hm : i < m
  · cases mask.getLsbD i <;> simp [hm]
  · rw [BitVec.getLsbD_of_ge old _ (Nat.le_of_not_lt hm), BitVec.getLsbD_of_ge new _ (Nat.le_of_not_lt hm)]
    simp

/-- Bit `i` of byte `k`. -/
theorem getLsbD_byteOf {m : Nat} (v : BitVec m) (k i : Nat) :
    (byteOf v k).getLsbD i = (decide (i < 8) && v.getLsbD (8 * k + i)) := by
  simp [byteOf, BitVec.getLsbD_extractLsb']

/-- A byte written to a place the register has reads back. -/
theorem byteOf_setByte_same {m : Nat} (v : BitVec m) (k : Nat) (b : Byte) (h : 8 * k + 8 ≤ m) :
    byteOf (setByte v k b) k = b := by
  apply BitVec.eq_of_getLsbD_eq
  intro i hi
  rw [getLsbD_byteOf, setByte, getLsbD_insertBits]
  have : 8 * k + i < m ∧ 8 * k ≤ 8 * k + i ∧ 8 * k + i < 8 * k + 8 := by omega
  simp [this, hi]

/-- A byte written leaves every other byte as it was. -/
theorem byteOf_setByte_ne {m : Nat} (v : BitVec m) (k j : Nat) (b : Byte) (h : j ≠ k) :
    byteOf (setByte v k b) j = byteOf v j := by
  apply BitVec.eq_of_getLsbD_eq
  intro i hi
  rw [getLsbD_byteOf, getLsbD_byteOf, setByte, getLsbD_insertBits]
  have : ¬ (8 * j + i < m ∧ 8 * k ≤ 8 * j + i ∧ 8 * j + i < 8 * k + 8) := by omega
  simp [this]

/-- A word is its four bytes, least significant first. -/
theorem word_of_bytes (w : Word) : byteOf w 3 ++ byteOf w 2 ++ byteOf w 1 ++ byteOf w 0 = w := by
  apply BitVec.eq_of_getLsbD_eq
  intro i hi
  simp only [BitVec.getLsbD_append, getLsbD_byteOf]
  by_cases h0 : i < 8
  · simp [h0]
  · by_cases h1 : i < 16
    · have : i - 8 < 8 := by omega
      have e : 8 * 1 + (i - 8) = i := by omega
      simp [h0, this, e]
    · by_cases h2 : i < 24
      · have a : ¬ i - 8 < 8 := by omega
        have b : i - 8 - 8 < 8 := by omega
        have e : 8 * 2 + (i - 8 - 8) = i := by omega
        simp [h0, a, b, e]
      · have a : ¬ i - 8 < 8 := by omega
        have b : ¬ i - 8 - 8 < 8 := by omega
        have c : i - 8 - 8 - 8 < 8 := by omega
        have e : 8 * 3 + (i - 8 - 8 - 8) = i := by omega
        simp [h0, a, b, c, e]

end Sys2Proof.Machine
end

