-- ==== Sys2Proof/Laws/Memory.lean ====
section
/-!
SUPPORT. Sys2Proof/Laws/Memory.lean: sparse maps and RAM. What a read after a write gives, and that every write keeps
the canonical form.
-/

namespace Sys2Proof.Machine

variable {w : Nat}

/-- A map whose keys are all above `a` lists nothing at `a`. -/
theorem sparse_get_of_above (m : Sparse w) (a : Nat) (h : Sparse.above a m = true) :
    Sparse.get m a = unlisted w := by
  induction m with
  | nil => rfl
  | cons e m ih =>
    simp only [Sparse.above, List.all_cons, Bool.and_eq_true, decide_eq_true_eq] at h
    have hne : ¬ a = e.1 := by omega
    simp only [Sparse.get, hne, if_false]
    exact ih h.2

/-- Raising the bound of `above` downwards. -/
theorem sparse_above_of_lt (m : Sparse w) (a b : Nat) (hab : a < b) (h : Sparse.above b m = true) :
    Sparse.above a m = true := by
  simp only [Sparse.above, List.all_eq_true, decide_eq_true_eq] at h ⊢
  intro e he
  exact Nat.lt_trans hab (h e he)

/-- A write leaves every other key alone (R102). -/
theorem sparse_get_set_ne (m : Sparse w) (a b : Nat) (v : BitVec w) (h : b ≠ a) :
    Sparse.get (Sparse.set m a v) b = Sparse.get m b := by
  induction m with
  | nil =>
    simp only [Sparse.set]
    split <;> simp [Sparse.get, h]
  | cons e m ih =>
    obtain ⟨k, x⟩ := e
    simp only [Sparse.set]
    split
    · split <;> simp [Sparse.get, h]
    · split
      · subst_vars
        split <;> simp [Sparse.get, h]
      · simp only [Sparse.get, ih]

/-- In a canonical map, a read after a write of the same key gives the value written. -/
theorem sparse_get_set_same (m : Sparse w) (a : Nat) (v : BitVec w) (hm : Sparse.wf m = true) :
    Sparse.get (Sparse.set m a v) a = v := by
  induction m with
  | nil =>
    simp only [Sparse.set]
    split <;> simp_all [Sparse.get]
  | cons e m ih =>
    obtain ⟨k, x⟩ := e
    simp only [Sparse.wf, Bool.and_eq_true, decide_eq_true_eq] at hm
    simp only [Sparse.set]
    split
    · split
      · have hk : ¬ a = k := by omega
        subst_vars
        simp only [Sparse.get, hk, if_false]
        exact sparse_get_of_above m a (sparse_above_of_lt m a k (by omega) hm.1.2)
      · simp [Sparse.get]
    · split
      · subst_vars
        split
        · subst_vars
          exact sparse_get_of_above m _ hm.1.2
        · simp [Sparse.get]
      · rename_i hk
        simp only [Sparse.get, hk, if_false]
        exact ih hm.2

/-- A read after a write of a canonical map, at any key. -/
theorem sparse_get_set (m : Sparse w) (a b : Nat) (v : BitVec w) (hm : Sparse.wf m = true) :
    Sparse.get (Sparse.set m a v) b = if b = a then v else Sparse.get m b := by
  split
  · subst_vars
    exact sparse_get_set_same m b v hm
  · exact sparse_get_set_ne m a b v ‹_›

/-- What a write can leave in the list: its own entry and entries that were there. -/
theorem sparse_mem_set (m : Sparse w) (a : Nat) (v : BitVec w) (e : Nat × BitVec w) (h : e ∈ Sparse.set m a v) :
    e = (a, v) ∨ e ∈ m := by
  induction m with
  | nil =>
    simp only [Sparse.set] at h
    split at h <;> simp_all
  | cons f m ih =>
    obtain ⟨k, x⟩ := f
    simp only [Sparse.set] at h
    split at h
    · split at h
      · exact .inr h
      · simpa using h
    · split at h
      · split at h
        · exact .inr (List.mem_cons_of_mem _ h)
        · rcases List.mem_cons.mp h with h | h
          · exact .inl h
          · exact .inr (List.mem_cons_of_mem _ h)
      · rcases List.mem_cons.mp h with h | h
        · exact .inr (h ▸ List.mem_cons_self)
        · exact (ih h).imp_right (List.mem_cons_of_mem _)

/-- A write above `b` keeps every key above `b`. -/
theorem sparse_above_set (m : Sparse w) (a b : Nat) (v : BitVec w) (hab : b < a)
    (h : Sparse.above b m = true) : Sparse.above b (Sparse.set m a v) = true := by
  simp only [Sparse.above, List.all_eq_true, decide_eq_true_eq] at h ⊢
  intro e he
  rcases sparse_mem_set m a v e he with rfl | he
  · exact hab
  · exact h e he

/-- Every write keeps the canonical form. -/
theorem sparse_wf_set (m : Sparse w) (a : Nat) (v : BitVec w) (hm : Sparse.wf m = true) :
    Sparse.wf (Sparse.set m a v) = true := by
  induction m with
  | nil =>
    simp only [Sparse.set]
    split <;> simp_all [Sparse.wf, Sparse.above]
  | cons e m ih =>
    obtain ⟨k, x⟩ := e
    have hm' := hm
    simp only [Sparse.wf, Bool.and_eq_true, decide_eq_true_eq] at hm
    simp only [Sparse.set]
    split
    · rename_i hak
      split
      · exact hm'
      · rename_i hv
        have hab := sparse_above_of_lt m a k hak hm.1.2
        simp only [Sparse.wf, Bool.and_eq_true, decide_eq_true_eq]
        refine ⟨⟨hv, ?_⟩, hm⟩
        simp only [Sparse.above, List.all_cons, Bool.and_eq_true, decide_eq_true_eq] at hab ⊢
        exact ⟨hak, hab⟩
    · split
      · subst_vars
        split
        · exact hm.2
        · rename_i hv
          simp only [Sparse.wf, Bool.and_eq_true, decide_eq_true_eq]
          exact ⟨⟨hv, hm.1.2⟩, hm.2⟩
      · simp only [Sparse.wf, Bool.and_eq_true, decide_eq_true_eq]
        exact ⟨⟨hm.1.1, sparse_above_set m a k v (by omega) hm.1.2⟩, ih hm.2⟩

/-- A write inside the range keeps every key inside it. -/
theorem sparse_within_set (m : Sparse w) (lo hi a : Nat) (v : BitVec w) (hlo : lo ≤ a) (hhi : a < hi)
    (h : Sparse.within lo hi m = true) : Sparse.within lo hi (Sparse.set m a v) = true := by
  simp only [Sparse.within, List.all_eq_true, Bool.and_eq_true, decide_eq_true_eq] at h ⊢
  intro e he
  rcases sparse_mem_set m a v e he with rfl | he
  · exact ⟨hlo, hhi⟩
  · exact h e he

/-- Two canonical maps that read the same at every key are equal. -/
theorem sparse_ext (m n : Sparse w) (hm : Sparse.wf m = true) (hn : Sparse.wf n = true)
    (h : ∀ a, Sparse.get m a = Sparse.get n a) : m = n := by
  induction m generalizing n with
  | nil =>
    cases n with
    | nil => rfl
    | cons e n =>
      obtain ⟨k, x⟩ := e
      simp only [Sparse.wf, Bool.and_eq_true, decide_eq_true_eq] at hn
      have := h k
      simp only [Sparse.get, if_true] at this
      exact absurd this.symm hn.1.1
  | cons e m ih =>
    obtain ⟨k, x⟩ := e
    simp only [Sparse.wf, Bool.and_eq_true, decide_eq_true_eq] at hm
    cases n with
    | nil =>
      have := h k
      simp only [Sparse.get, if_true] at this
      exact absurd this hm.1.1
    | cons e' n =>
      obtain ⟨k', x'⟩ := e'
      simp only [Sparse.wf, Bool.and_eq_true, decide_eq_true_eq] at hn
      have hkk : k = k' := by
        rcases Nat.lt_trichotomy k k' with hlt | heq | hgt
        · have hne : ¬ k = k' := by omega
          have := h k
          simp only [Sparse.get, if_true, hne, if_false] at this
          rw [sparse_get_of_above n k (sparse_above_of_lt n k k' hlt hn.1.2)] at this
          exact absurd this hm.1.1
        · exact heq
        · have hne : ¬ k' = k := by omega
          have := h k'
          simp only [Sparse.get, if_true, hne, if_false] at this
          rw [sparse_get_of_above m k' (sparse_above_of_lt m k' k hgt hm.1.2)] at this
          exact absurd this.symm hn.1.1
      subst hkk
      have hx : x = x' := by
        have := h k
        simpa only [Sparse.get, if_true] using this
      subst hx
      rw [ih n hm.2 hn.2]
      intro a
      by_cases ha : a = k
      · subst ha
        rw [sparse_get_of_above m a hm.1.2, sparse_get_of_above n a hn.1.2]
      · have := h a
        simpa only [Sparse.get, ha, if_false] using this

/-! ## RAM -/

/-- A byte written to RAM reads back. -/
theorem memory_read_write_same (m : Memory) (a : Word) (b : Byte) (h : m.wf = true) : (m.write a b).read a = b := by
  simp only [Memory.wf, Bool.and_eq_true] at h
  exact sparse_get_set_same (w := 8) m a.toNat b h.1

/-- A byte written to RAM leaves every other byte alone (R102). -/
theorem memory_read_write_ne (m : Memory) (a x : Word) (b : Byte) (h : x ≠ a) : (m.write a b).read x = m.read x := by
  apply sparse_get_set_ne (w := 8)
  intro hn
  exact h (BitVec.eq_of_toNat_eq hn)

/-- A byte of RAM after a write. -/
theorem memory_read_write (m : Memory) (a x : Word) (b : Byte) (h : m.wf = true) :
    (m.write a b).read x = if x = a then b else m.read x := by
  split
  · subst_vars
    exact memory_read_write_same m x b h
  · exact memory_read_write_ne m a x b ‹_›

/-- Every write keeps RAM canonical. -/
theorem memory_wf_write (m : Memory) (a : Word) (b : Byte) (h : m.wf = true) : (m.write a b).wf = true := by
  simp only [Memory.wf, Bool.and_eq_true] at h ⊢
  exact ⟨sparse_wf_set (w := 8) m a.toNat b h.1,
    sparse_within_set (w := 8) m 0 (2 ^ 32) a.toNat b (Nat.zero_le _) a.isLt h.2⟩

/-- RAM that no store has written is canonical. -/
theorem memory_wf_nil : Memory.wf [] = true := rfl

end Sys2Proof.Machine
end

