-- ==== Sys2Proof/Laws/Bus.lean ====
section
/-!
SUPPORT. Sys2Proof/Laws/Bus.lean: what a byte access and a sequence of byte accesses can do to the state.
-/

namespace Sys2Proof.Machine

/-! ## The decoder -/

/-- The test of R101 as inequalities. -/
theorem inWindow_iff (base : Word) (size : Nat) (a : Word) :
    inWindow base size a = true ↔ base.toNat ≤ a.toNat ∧ a.toNat < base.toNat + size := by
  simp [inWindow]

/-! ## One byte -/

/-- All a byte read can change: the UART and the PLIC (R111). -/
theorem busReadByte_cases (a : Word) (s : State) :
    ∃ u p, (busReadByte a s).2 = { s with uart := u, plic := p } := by
  unfold busReadByte
  cases route s.cfg a <;> exact ⟨_, _, rfl⟩

/-- All a byte write can change: RAM and the devices (R101). -/
theorem busWriteByte_cases (a : Word) (b : Byte) (s : State) :
    ∃ m u c p f, busWriteByte a b s = { s with mem := m, uart := u, clint := c, plic := p, fb := f } := by
  unfold busWriteByte
  cases route s.cfg a <;> exact ⟨_, _, _, _, _, rfl⟩

/-- A byte read of RAM (R102). -/
theorem busReadByte_ram (a : Word) (s : State) (h : route s.cfg a = .ram) : busReadByte a s = (s.mem.read a, s) := by
  simp [busReadByte, h]

/-- A byte write to RAM (R102). -/
theorem busWriteByte_ram (a : Word) (b : Byte) (s : State) (h : route s.cfg a = .ram) :
    busWriteByte a b s = { s with mem := s.mem.write a b } := by
  simp [busWriteByte, h]

/-- A byte read of the CLINT (R101, R103). -/
theorem busReadByte_clint {a : Word} {s : State} {o : Nat} (h : route s.cfg a = .clint o) :
    busReadByte a s = (s.clint.readByte o, s) := by
  simp [busReadByte, h]

/-- A byte read of the PLIC (R101, R103). -/
theorem busReadByte_plic {a : Word} {s : State} {o : Nat} (h : route s.cfg a = .plic o) :
    busReadByte a s =
      ((s.plic.readByte s.cfg.plicNSources s.cfg.plicCtx o).1,
        { s with plic := (s.plic.readByte s.cfg.plicNSources s.cfg.plicCtx o).2 }) := by
  simp [busReadByte, h]

/-- A byte read of the UART (R101, R103). -/
theorem busReadByte_uart {a : Word} {s : State} {o : Nat} (h : route s.cfg a = .uart o) :
    busReadByte a s = ((s.uart.readByte o).1, { s with uart := (s.uart.readByte o).2 }) := by
  simp [busReadByte, h]

/-- A byte read of the framebuffer (R101, R103). -/
theorem busReadByte_fb {a : Word} {s : State} {o : Nat} (h : route s.cfg a = .fb o) :
    busReadByte a s = (fbReadByte s.fb o, s) := by
  simp [busReadByte, h]

/-- A byte write to the CLINT (R101, R104). -/
theorem busWriteByte_clint {a : Word} {b : Byte} {s : State} {o : Nat} (h : route s.cfg a = .clint o) :
    busWriteByte a b s = { s with clint := s.clint.writeByte o b } := by
  simp [busWriteByte, h]

/-- A byte write to the PLIC (R101, R104). -/
theorem busWriteByte_plic {a : Word} {b : Byte} {s : State} {o : Nat} (h : route s.cfg a = .plic o) :
    busWriteByte a b s = { s with plic := s.plic.writeByte s.cfg.plicNSources s.cfg.plicCtx o b } := by
  simp [busWriteByte, h]

/-- A byte write to the UART (R101, R104). -/
theorem busWriteByte_uart {a : Word} {b : Byte} {s : State} {o : Nat} (h : route s.cfg a = .uart o) :
    busWriteByte a b s = { s with uart := s.uart.writeByte o b } := by
  simp [busWriteByte, h]

/-- A byte write to the framebuffer (R101, R104). -/
theorem busWriteByte_fb {a : Word} {b : Byte} {s : State} {o : Nat} (h : route s.cfg a = .fb o) :
    busWriteByte a b s = { s with fb := fbWriteByte s.fb o b } := by
  simp [busWriteByte, h]

/-- A byte write keeps RAM canonical. -/
theorem busWriteByte_mem_wf (a : Word) (b : Byte) (s : State) (h : s.mem.wf = true) :
    (busWriteByte a b s).mem.wf = true := by
  unfold busWriteByte
  cases route s.cfg a <;> simp [h, memory_wf_write]

/-- A byte write leaves every other byte of RAM alone. -/
theorem busWriteByte_mem_ne (a x : Word) (b : Byte) (s : State) (h : x ≠ a) :
    (busWriteByte a b s).mem.read x = s.mem.read x := by
  unfold busWriteByte
  cases route s.cfg a <;> simp [memory_read_write_ne _ _ _ _ h]

/-- A byte write outside RAM leaves RAM alone. -/
theorem busWriteByte_mem_of_route (a : Word) (b : Byte) (s : State) (h : route s.cfg a ≠ .ram) :
    (busWriteByte a b s).mem = s.mem := by
  unfold busWriteByte
  cases hr : route s.cfg a <;> simp_all

/-! ## `MemRead` and `MemWrite` -/

/-- All a read sequence can change: the UART and the PLIC (R111). -/
theorem memRead_cases (n : Nat) (a : Word) (s : State) :
    ∃ u p, (memRead n a s).2 = { s with uart := u, plic := p } := by
  induction n generalizing a s with
  | zero => exact ⟨_, _, rfl⟩
  | succ n ih =>
    obtain ⟨u, p, h⟩ := busReadByte_cases a s
    obtain ⟨u', p', h'⟩ := ih (a + 1#32) (busReadByte a s).2
    refine ⟨u', p', ?_⟩
    simp only [memRead]
    rw [h', h]

/-- All a write sequence can change: RAM and the devices. -/
theorem memWrite_cases (n : Nat) (a v : Word) (s : State) :
    ∃ m u c p f, memWrite n a v s = { s with mem := m, uart := u, clint := c, plic := p, fb := f } := by
  induction n generalizing a v s with
  | zero => exact ⟨_, _, _, _, _, rfl⟩
  | succ n ih =>
    obtain ⟨m, u, c, p, f, h⟩ := busWriteByte_cases a (v.setWidth 8) s
    obtain ⟨m', u', c', p', f', h'⟩ := ih (a + 1#32) (v >>> 8) (busWriteByte a (v.setWidth 8) s)
    refine ⟨m', u', c', p', f', ?_⟩
    simp only [memWrite]
    rw [h', h]

/-- A write sequence keeps RAM canonical. -/
theorem memWrite_mem_wf (n : Nat) (a v : Word) (s : State) (h : s.mem.wf = true) :
    (memWrite n a v s).mem.wf = true := by
  induction n generalizing a v s with
  | zero => exact h
  | succ n ih => exact ih _ _ _ (busWriteByte_mem_wf _ _ _ h)

/-- The bytes of an access, one at a time. -/
theorem accessBytes_succ (a : Word) (n : Nat) : accessBytes a (n + 1) = a :: accessBytes (a + 1#32) n := by
  simp only [accessBytes, List.range_succ_eq_map, List.map_cons, List.map_map]
  congr 1
  · simp
  · apply List.map_congr_left
    intro i _
    simp only [Function.comp_apply, Nat.succ_eq_add_one, BitVec.ofNat_add]
    rw [BitVec.add_assoc, BitVec.add_comm (BitVec.ofNat 32 i)]

/-- A write sequence leaves every RAM byte outside the access alone. -/
theorem memWrite_mem_read (n : Nat) (a v x : Word) (s : State) (h : x ∉ accessBytes a n) :
    (memWrite n a v s).mem.read x = s.mem.read x := by
  induction n generalizing a v s with
  | zero => rfl
  | succ n ih =>
    rw [accessBytes_succ, List.mem_cons, not_or] at h
    simp only [memWrite]
    rw [ih _ _ _ h.2, busWriteByte_mem_ne _ _ _ _ h.1]

/-- An access whose bytes all lie in RAM, one byte at a time. -/
theorem inRam_succ (c : Config) (a : Word) (n : Nat) :
    InRam c a (n + 1) ↔ route c a = .ram ∧ InRam c (a + 1#32) n := by
  simp [InRam, accessBytes_succ]

/-- A read sequence in RAM changes nothing. -/
theorem memRead_ram_state (n : Nat) (a : Word) (s : State) (h : InRam s.cfg a n) : (memRead n a s).2 = s := by
  induction n generalizing a s with
  | zero => rfl
  | succ n ih =>
    rw [inRam_succ] at h
    simp only [memRead, busReadByte_ram a s h.1]
    exact ih _ _ h.2

/-! ## The same sequences as Safety.lean writes them -/

/-- The first byte of a read sequence, and the rest (R103). -/
theorem readBytes_succ (n : Nat) (a : Word) (s : State) :
    readBytes (n + 1) a s =
      ((busReadByte a s).1 :: (readBytes n (a + 1#32) (busReadByte a s).2).1,
        (readBytes n (a + 1#32) (busReadByte a s).2).2) := by
  have gen : ∀ (l : List Nat) (acc : List Byte) (b : Word) (s : State),
      l.foldl (fun acc i => ((acc.1 ++ [(busReadByte (b + BitVec.ofNat 32 i) acc.2).1]),
        (busReadByte (b + BitVec.ofNat 32 i) acc.2).2)) (acc, s) =
      (acc ++ (l.foldl (fun acc i => ((acc.1 ++ [(busReadByte (b + BitVec.ofNat 32 i) acc.2).1]),
        (busReadByte (b + BitVec.ofNat 32 i) acc.2).2)) (([] : List Byte), s)).1,
        (l.foldl (fun acc i => ((acc.1 ++ [(busReadByte (b + BitVec.ofNat 32 i) acc.2).1]),
        (busReadByte (b + BitVec.ofNat 32 i) acc.2).2)) (([] : List Byte), s)).2) := by
    intro l
    induction l with
    | nil => intro acc b s; simp
    | cons i l ih =>
      intro acc b s
      simp only [List.foldl_cons, List.nil_append]
      rw [ih, ih [_]]
      simp
  simp only [readBytes, List.range_succ_eq_map, List.foldl_cons, List.foldl_map, List.nil_append]
  obtain ⟨c, hc⟩ : ∃ c, c = a + 1#32 := ⟨_, rfl⟩
  rw [← hc]
  have hf : ∀ i : Nat, a + BitVec.ofNat 32 (Nat.succ i) = c + BitVec.ofNat 32 i := by
    intro i
    rw [hc]
    simp only [Nat.succ_eq_add_one, BitVec.ofNat_add]
    rw [BitVec.add_assoc, BitVec.add_comm (BitVec.ofNat 32 i)]
  simp only [hf]
  have h0 : a + BitVec.ofNat 32 0 = a := by simp
  rw [h0, gen]
  simp

/-- `MemRead` is the value of its bytes (R103); the state is the same. -/
theorem memRead_eq_readBytes (n : Nat) (a : Word) (s : State) :
    memRead n a s = (BitVec.ofNat 32 (leNat (readBytes n a s).1), (readBytes n a s).2) := by
  induction n generalizing a s with
  | zero => rfl
  | succ n ih =>
    rw [readBytes_succ]
    simp only [memRead, ih, leNat]
    congr 1
    apply BitVec.eq_of_toNat_eq
    rw [BitVec.toNat_or, BitVec.toNat_shiftLeft, BitVec.toNat_setWidth, BitVec.toNat_ofNat, BitVec.toNat_ofNat]
    have hb := (busReadByte a s).1.isLt
    generalize (busReadByte a s).1.toNat = b at hb
    generalize leNat (readBytes n (a + 1#32) (busReadByte a s).2).1 = m
    have e1 : (m % 2 ^ 32) <<< 8 % 2 ^ 32 = (m % 2 ^ 24) <<< 8 := by
      simp only [Nat.shiftLeft_eq]; omega
    rw [e1, Nat.mod_eq_of_lt (by omega : b < 2 ^ 32), Nat.or_comm, ← Nat.shiftLeft_add_eq_or_of_lt hb]
    simp only [Nat.shiftLeft_eq]; omega

/-- The first byte of a write sequence, and the rest (R104). -/
theorem writeBytes_succ (n : Nat) (a v : Word) (s : State) :
    writeBytes (n + 1) a v s = writeBytes n (a + 1#32) (v >>> 8) (busWriteByte a (v.setWidth 8) s) := by
  simp only [writeBytes, List.range_succ_eq_map, List.foldl_cons, List.foldl_map]
  have h0 : a + BitVec.ofNat 32 0 = a := by simp
  have h1 : v.extractLsb' (8 * 0) 8 = v.setWidth 8 := by
    apply BitVec.eq_of_getLsbD_eq
    intro i hi
    simp [hi]
  rw [h0, h1]
  congr 1
  funext s i
  congr 1
  · simp only [Nat.succ_eq_add_one, BitVec.ofNat_add]
    rw [BitVec.add_assoc, BitVec.add_comm (BitVec.ofNat 32 i)]
  · apply BitVec.eq_of_getLsbD_eq
    intro j hj
    simp [hj]
    congr 1
    omega

/-- `MemWrite` is the loop of R104. -/
theorem memWrite_eq_writeBytes (n : Nat) (a v : Word) (s : State) : memWrite n a v s = writeBytes n a v s := by
  induction n generalizing a v s with
  | zero => rfl
  | succ n ih => rw [writeBytes_succ, ← ih]; rfl

end Sys2Proof.Machine
end

