-- ==== Sys2Proof/Laws/Encode.lean ====
section
/-!
SUPPORT. Sys2Proof/Laws/Encode.lean: the fields of each encoding format (30_encoding.md R171-R178): what the decoder's
field functions read from a word the encoder's format functions built.
-/

namespace Sys2Proof

/-- The register a five-bit field names. -/
@[simp] theorem regBits_toFin (r : RegIdx) : (regBits r).toFin = r := rfl

/-! ## `encodeR` -/

@[simp] theorem encodeR_opcode (f7 : BitVec 7) (f3 : BitVec 3) (op : BitVec 7) (rd rs1 rs2 : RegIdx) :
    (encodeR f7 f3 op rd rs1 rs2).extractLsb' 0 7 = op := by
  apply BitVec.eq_of_getLsbD_eq
  intro i hi
  simp only [encodeR, BitVec.getLsbD_extractLsb', BitVec.getLsbD_append]
  interval_cases i <;> simp

@[simp] theorem encodeR_rd (f7 : BitVec 7) (f3 : BitVec 3) (op : BitVec 7) (rd rs1 rs2 : RegIdx) :
    (encodeR f7 f3 op rd rs1 rs2).extractLsb' 7 5 = regBits rd := by
  apply BitVec.eq_of_getLsbD_eq
  intro i hi
  simp only [encodeR, BitVec.getLsbD_extractLsb', BitVec.getLsbD_append]
  interval_cases i <;> simp

@[simp] theorem encodeR_funct3 (f7 : BitVec 7) (f3 : BitVec 3) (op : BitVec 7) (rd rs1 rs2 : RegIdx) :
    (encodeR f7 f3 op rd rs1 rs2).extractLsb' 12 3 = f3 := by
  apply BitVec.eq_of_getLsbD_eq
  intro i hi
  simp only [encodeR, BitVec.getLsbD_extractLsb', BitVec.getLsbD_append]
  interval_cases i <;> simp

@[simp] theorem encodeR_rs1 (f7 : BitVec 7) (f3 : BitVec 3) (op : BitVec 7) (rd rs1 rs2 : RegIdx) :
    (encodeR f7 f3 op rd rs1 rs2).extractLsb' 15 5 = regBits rs1 := by
  apply BitVec.eq_of_getLsbD_eq
  intro i hi
  simp only [encodeR, BitVec.getLsbD_extractLsb', BitVec.getLsbD_append]
  interval_cases i <;> simp

@[simp] theorem encodeR_rs2 (f7 : BitVec 7) (f3 : BitVec 3) (op : BitVec 7) (rd rs1 rs2 : RegIdx) :
    (encodeR f7 f3 op rd rs1 rs2).extractLsb' 20 5 = regBits rs2 := by
  apply BitVec.eq_of_getLsbD_eq
  intro i hi
  simp only [encodeR, BitVec.getLsbD_extractLsb', BitVec.getLsbD_append]
  interval_cases i <;> simp

@[simp] theorem encodeR_funct7 (f7 : BitVec 7) (f3 : BitVec 3) (op : BitVec 7) (rd rs1 rs2 : RegIdx) :
    (encodeR f7 f3 op rd rs1 rs2).extractLsb' 25 7 = f7 := by
  apply BitVec.eq_of_getLsbD_eq
  intro i hi
  simp only [encodeR, BitVec.getLsbD_extractLsb', BitVec.getLsbD_append]
  interval_cases i <;> simp

/-! ## `encodeAmo` -/

@[simp] theorem encodeAmo_opcode (f5 : BitVec 5) (rd rs1 rs2 : RegIdx) :
    (encodeAmo f5 rd rs1 rs2).extractLsb' 0 7 = 0b0101111#7 := by
  apply BitVec.eq_of_getLsbD_eq
  intro i hi
  simp only [encodeAmo, BitVec.getLsbD_extractLsb', BitVec.getLsbD_append]
  interval_cases i <;> simp

@[simp] theorem encodeAmo_rd (f5 : BitVec 5) (rd rs1 rs2 : RegIdx) :
    (encodeAmo f5 rd rs1 rs2).extractLsb' 7 5 = regBits rd := by
  apply BitVec.eq_of_getLsbD_eq
  intro i hi
  simp only [encodeAmo, BitVec.getLsbD_extractLsb', BitVec.getLsbD_append]
  interval_cases i <;> simp

@[simp] theorem encodeAmo_funct3 (f5 : BitVec 5) (rd rs1 rs2 : RegIdx) :
    (encodeAmo f5 rd rs1 rs2).extractLsb' 12 3 = 2#3 := by
  apply BitVec.eq_of_getLsbD_eq
  intro i hi
  simp only [encodeAmo, BitVec.getLsbD_extractLsb', BitVec.getLsbD_append]
  interval_cases i <;> simp

@[simp] theorem encodeAmo_rs1 (f5 : BitVec 5) (rd rs1 rs2 : RegIdx) :
    (encodeAmo f5 rd rs1 rs2).extractLsb' 15 5 = regBits rs1 := by
  apply BitVec.eq_of_getLsbD_eq
  intro i hi
  simp only [encodeAmo, BitVec.getLsbD_extractLsb', BitVec.getLsbD_append]
  interval_cases i <;> simp

@[simp] theorem encodeAmo_rs2 (f5 : BitVec 5) (rd rs1 rs2 : RegIdx) :
    (encodeAmo f5 rd rs1 rs2).extractLsb' 20 5 = regBits rs2 := by
  apply BitVec.eq_of_getLsbD_eq
  intro i hi
  simp only [encodeAmo, BitVec.getLsbD_extractLsb', BitVec.getLsbD_append]
  interval_cases i <;> simp

@[simp] theorem encodeAmo_funct5 (f5 : BitVec 5) (rd rs1 rs2 : RegIdx) :
    (encodeAmo f5 rd rs1 rs2).extractLsb' 27 5 = f5 := by
  apply BitVec.eq_of_getLsbD_eq
  intro i hi
  simp only [encodeAmo, BitVec.getLsbD_extractLsb', BitVec.getLsbD_append]
  interval_cases i <;> simp

/-! ## `encodeI` -/

@[simp] theorem encodeI_opcode (f3 : BitVec 3) (op : BitVec 7) (rd : RegIdx) (rs1 : BitVec 5) (imm : BitVec 12) :
    (encodeI f3 op rd rs1 imm).extractLsb' 0 7 = op := by
  apply BitVec.eq_of_getLsbD_eq
  intro i hi
  simp only [encodeI, BitVec.getLsbD_extractLsb', BitVec.getLsbD_append]
  interval_cases i <;> simp

@[simp] theorem encodeI_rd (f3 : BitVec 3) (op : BitVec 7) (rd : RegIdx) (rs1 : BitVec 5) (imm : BitVec 12) :
    (encodeI f3 op rd rs1 imm).extractLsb' 7 5 = regBits rd := by
  apply BitVec.eq_of_getLsbD_eq
  intro i hi
  simp only [encodeI, BitVec.getLsbD_extractLsb', BitVec.getLsbD_append]
  interval_cases i <;> simp

@[simp] theorem encodeI_funct3 (f3 : BitVec 3) (op : BitVec 7) (rd : RegIdx) (rs1 : BitVec 5) (imm : BitVec 12) :
    (encodeI f3 op rd rs1 imm).extractLsb' 12 3 = f3 := by
  apply BitVec.eq_of_getLsbD_eq
  intro i hi
  simp only [encodeI, BitVec.getLsbD_extractLsb', BitVec.getLsbD_append]
  interval_cases i <;> simp

@[simp] theorem encodeI_rs1 (f3 : BitVec 3) (op : BitVec 7) (rd : RegIdx) (rs1 : BitVec 5) (imm : BitVec 12) :
    (encodeI f3 op rd rs1 imm).extractLsb' 15 5 = rs1 := by
  apply BitVec.eq_of_getLsbD_eq
  intro i hi
  simp only [encodeI, BitVec.getLsbD_extractLsb', BitVec.getLsbD_append]
  interval_cases i <;> simp

@[simp] theorem encodeI_imm (f3 : BitVec 3) (op : BitVec 7) (rd : RegIdx) (rs1 : BitVec 5) (imm : BitVec 12) :
    (encodeI f3 op rd rs1 imm).extractLsb' 20 12 = imm := by
  apply BitVec.eq_of_getLsbD_eq
  intro i hi
  simp only [encodeI, BitVec.getLsbD_extractLsb', BitVec.getLsbD_append]
  interval_cases i <;> simp

@[simp] theorem encodeI_shamt (f3 : BitVec 3) (op : BitVec 7) (rd : RegIdx) (rs1 : BitVec 5) (imm : BitVec 12) :
    (encodeI f3 op rd rs1 imm).extractLsb' 20 5 = imm.extractLsb' 0 5 := by
  apply BitVec.eq_of_getLsbD_eq
  intro i hi
  simp only [encodeI, BitVec.getLsbD_extractLsb', BitVec.getLsbD_append]
  interval_cases i <;> simp

@[simp] theorem encodeI_funct7 (f3 : BitVec 3) (op : BitVec 7) (rd : RegIdx) (rs1 : BitVec 5) (imm : BitVec 12) :
    (encodeI f3 op rd rs1 imm).extractLsb' 25 7 = imm.extractLsb' 5 7 := by
  apply BitVec.eq_of_getLsbD_eq
  intro i hi
  simp only [encodeI, BitVec.getLsbD_extractLsb', BitVec.getLsbD_append]
  interval_cases i <;> simp

/-! ## `encodeS` -/

@[simp] theorem encodeS_opcode (f3 : BitVec 3) (rs1 rs2 : RegIdx) (imm : BitVec 12) :
    (encodeS f3 rs1 rs2 imm).extractLsb' 0 7 = 0b0100011#7 := by
  apply BitVec.eq_of_getLsbD_eq
  intro i hi
  simp only [encodeS, BitVec.getLsbD_extractLsb', BitVec.getLsbD_append]
  interval_cases i <;> simp

@[simp] theorem encodeS_low (f3 : BitVec 3) (rs1 rs2 : RegIdx) (imm : BitVec 12) :
    (encodeS f3 rs1 rs2 imm).extractLsb' 7 5 = imm.extractLsb' 0 5 := by
  apply BitVec.eq_of_getLsbD_eq
  intro i hi
  simp only [encodeS, BitVec.getLsbD_extractLsb', BitVec.getLsbD_append]
  interval_cases i <;> simp

@[simp] theorem encodeS_funct3 (f3 : BitVec 3) (rs1 rs2 : RegIdx) (imm : BitVec 12) :
    (encodeS f3 rs1 rs2 imm).extractLsb' 12 3 = f3 := by
  apply BitVec.eq_of_getLsbD_eq
  intro i hi
  simp only [encodeS, BitVec.getLsbD_extractLsb', BitVec.getLsbD_append]
  interval_cases i <;> simp

@[simp] theorem encodeS_rs1 (f3 : BitVec 3) (rs1 rs2 : RegIdx) (imm : BitVec 12) :
    (encodeS f3 rs1 rs2 imm).extractLsb' 15 5 = regBits rs1 := by
  apply BitVec.eq_of_getLsbD_eq
  intro i hi
  simp only [encodeS, BitVec.getLsbD_extractLsb', BitVec.getLsbD_append]
  interval_cases i <;> simp

@[simp] theorem encodeS_rs2 (f3 : BitVec 3) (rs1 rs2 : RegIdx) (imm : BitVec 12) :
    (encodeS f3 rs1 rs2 imm).extractLsb' 20 5 = regBits rs2 := by
  apply BitVec.eq_of_getLsbD_eq
  intro i hi
  simp only [encodeS, BitVec.getLsbD_extractLsb', BitVec.getLsbD_append]
  interval_cases i <;> simp

@[simp] theorem encodeS_high (f3 : BitVec 3) (rs1 rs2 : RegIdx) (imm : BitVec 12) :
    (encodeS f3 rs1 rs2 imm).extractLsb' 25 7 = imm.extractLsb' 5 7 := by
  apply BitVec.eq_of_getLsbD_eq
  intro i hi
  simp only [encodeS, BitVec.getLsbD_extractLsb', BitVec.getLsbD_append]
  interval_cases i <;> simp

/-! ## `encodeB` -/

@[simp] theorem encodeB_opcode (f3 : BitVec 3) (rs1 rs2 : RegIdx) (off : BitVec 13) :
    (encodeB f3 rs1 rs2 off).extractLsb' 0 7 = 0b1100011#7 := by
  apply BitVec.eq_of_getLsbD_eq
  intro i hi
  simp only [encodeB, BitVec.getLsbD_extractLsb', BitVec.getLsbD_append]
  interval_cases i <;> simp

@[simp] theorem encodeB_bit11 (f3 : BitVec 3) (rs1 rs2 : RegIdx) (off : BitVec 13) :
    (encodeB f3 rs1 rs2 off).extractLsb' 7 1 = off.extractLsb' 11 1 := by
  apply BitVec.eq_of_getLsbD_eq
  intro i hi
  simp only [encodeB, BitVec.getLsbD_extractLsb', BitVec.getLsbD_append]
  interval_cases i <;> simp

@[simp] theorem encodeB_low (f3 : BitVec 3) (rs1 rs2 : RegIdx) (off : BitVec 13) :
    (encodeB f3 rs1 rs2 off).extractLsb' 8 4 = off.extractLsb' 1 4 := by
  apply BitVec.eq_of_getLsbD_eq
  intro i hi
  simp only [encodeB, BitVec.getLsbD_extractLsb', BitVec.getLsbD_append]
  interval_cases i <;> simp

@[simp] theorem encodeB_funct3 (f3 : BitVec 3) (rs1 rs2 : RegIdx) (off : BitVec 13) :
    (encodeB f3 rs1 rs2 off).extractLsb' 12 3 = f3 := by
  apply BitVec.eq_of_getLsbD_eq
  intro i hi
  simp only [encodeB, BitVec.getLsbD_extractLsb', BitVec.getLsbD_append]
  interval_cases i <;> simp

@[simp] theorem encodeB_rs1 (f3 : BitVec 3) (rs1 rs2 : RegIdx) (off : BitVec 13) :
    (encodeB f3 rs1 rs2 off).extractLsb' 15 5 = regBits rs1 := by
  apply BitVec.eq_of_getLsbD_eq
  intro i hi
  simp only [encodeB, BitVec.getLsbD_extractLsb', BitVec.getLsbD_append]
  interval_cases i <;> simp

@[simp] theorem encodeB_rs2 (f3 : BitVec 3) (rs1 rs2 : RegIdx) (off : BitVec 13) :
    (encodeB f3 rs1 rs2 off).extractLsb' 20 5 = regBits rs2 := by
  apply BitVec.eq_of_getLsbD_eq
  intro i hi
  simp only [encodeB, BitVec.getLsbD_extractLsb', BitVec.getLsbD_append]
  interval_cases i <;> simp

@[simp] theorem encodeB_high (f3 : BitVec 3) (rs1 rs2 : RegIdx) (off : BitVec 13) :
    (encodeB f3 rs1 rs2 off).extractLsb' 25 6 = off.extractLsb' 5 6 := by
  apply BitVec.eq_of_getLsbD_eq
  intro i hi
  simp only [encodeB, BitVec.getLsbD_extractLsb', BitVec.getLsbD_append]
  interval_cases i <;> simp

@[simp] theorem encodeB_bit12 (f3 : BitVec 3) (rs1 rs2 : RegIdx) (off : BitVec 13) :
    (encodeB f3 rs1 rs2 off).extractLsb' 31 1 = off.extractLsb' 12 1 := by
  apply BitVec.eq_of_getLsbD_eq
  intro i hi
  simp only [encodeB, BitVec.getLsbD_extractLsb', BitVec.getLsbD_append]
  interval_cases i <;> simp

/-! ## `encodeU` -/

@[simp] theorem encodeU_opcode (op : BitVec 7) (rd : RegIdx) (imm : BitVec 20) :
    (encodeU op rd imm).extractLsb' 0 7 = op := by
  apply BitVec.eq_of_getLsbD_eq
  intro i hi
  simp only [encodeU, BitVec.getLsbD_extractLsb', BitVec.getLsbD_append]
  interval_cases i <;> simp

@[simp] theorem encodeU_rd (op : BitVec 7) (rd : RegIdx) (imm : BitVec 20) :
    (encodeU op rd imm).extractLsb' 7 5 = regBits rd := by
  apply BitVec.eq_of_getLsbD_eq
  intro i hi
  simp only [encodeU, BitVec.getLsbD_extractLsb', BitVec.getLsbD_append]
  interval_cases i <;> simp

@[simp] theorem encodeU_imm (op : BitVec 7) (rd : RegIdx) (imm : BitVec 20) :
    (encodeU op rd imm).extractLsb' 12 20 = imm := by
  apply BitVec.eq_of_getLsbD_eq
  intro i hi
  simp only [encodeU, BitVec.getLsbD_extractLsb', BitVec.getLsbD_append]
  interval_cases i <;> simp

/-! ## `encodeJ` -/

@[simp] theorem encodeJ_opcode (rd : RegIdx) (off : BitVec 21) :
    (encodeJ rd off).extractLsb' 0 7 = 0b1101111#7 := by
  apply BitVec.eq_of_getLsbD_eq
  intro i hi
  simp only [encodeJ, BitVec.getLsbD_extractLsb', BitVec.getLsbD_append]
  interval_cases i <;> simp

@[simp] theorem encodeJ_rd (rd : RegIdx) (off : BitVec 21) :
    (encodeJ rd off).extractLsb' 7 5 = regBits rd := by
  apply BitVec.eq_of_getLsbD_eq
  intro i hi
  simp only [encodeJ, BitVec.getLsbD_extractLsb', BitVec.getLsbD_append]
  interval_cases i <;> simp

@[simp] theorem encodeJ_mid (rd : RegIdx) (off : BitVec 21) :
    (encodeJ rd off).extractLsb' 12 8 = off.extractLsb' 12 8 := by
  apply BitVec.eq_of_getLsbD_eq
  intro i hi
  simp only [encodeJ, BitVec.getLsbD_extractLsb', BitVec.getLsbD_append]
  interval_cases i <;> simp

@[simp] theorem encodeJ_bit11 (rd : RegIdx) (off : BitVec 21) :
    (encodeJ rd off).extractLsb' 20 1 = off.extractLsb' 11 1 := by
  apply BitVec.eq_of_getLsbD_eq
  intro i hi
  simp only [encodeJ, BitVec.getLsbD_extractLsb', BitVec.getLsbD_append]
  interval_cases i <;> simp

@[simp] theorem encodeJ_low (rd : RegIdx) (off : BitVec 21) :
    (encodeJ rd off).extractLsb' 21 10 = off.extractLsb' 1 10 := by
  apply BitVec.eq_of_getLsbD_eq
  intro i hi
  simp only [encodeJ, BitVec.getLsbD_extractLsb', BitVec.getLsbD_append]
  interval_cases i <;> simp

@[simp] theorem encodeJ_bit20 (rd : RegIdx) (off : BitVec 21) :
    (encodeJ rd off).extractLsb' 31 1 = off.extractLsb' 20 1 := by
  apply BitVec.eq_of_getLsbD_eq
  intro i hi
  simp only [encodeJ, BitVec.getLsbD_extractLsb', BitVec.getLsbD_append]
  interval_cases i <;> simp

end Sys2Proof
end

