-- ==== Sys2Proof/Laws/State.lean ====
section
/-!
SUPPORT. Sys2Proof/Laws/State.lean: one lemma per field for each update of State, so that no later proof unfolds a
record update.
-/

namespace Sys2Proof.Machine

/-! ## Registers (R31) -/

/-- x0 reads 0. -/
@[simp] theorem readReg_zero (s : State) : s.readReg 0 = 0#32 := rfl

/-- A register other than x0 reads its slot. -/
theorem readReg_of_ne_zero (s : State) (r : RegIdx) (h : r ≠ 0) : s.readReg r = s.regs[r] := by
  simp [State.readReg, h]

/-- Two states with the same register file read the same registers. -/
theorem readReg_congr (s t : State) (h : t.regs = s.regs) (r : RegIdx) : t.readReg r = s.readReg r := by
  simp only [State.readReg, h]

/-- A register after a write. -/
theorem readReg_writeReg (s : State) (rd r : RegIdx) (v : Word) :
    (s.writeReg rd v).readReg r = if r = rd ∧ rd ≠ 0 then v else s.readReg r := by
  by_cases h0 : rd = 0
  · simp [State.writeReg, h0]
  · by_cases hr : r = rd
    · subst hr
      simp [State.writeReg, State.readReg, h0]
    · have hne : ¬ (rd : Nat) = (r : Nat) := fun h => hr (Fin.ext h.symm)
      simp [State.writeReg, State.readReg, h0, hr, Vector.getElem_set, hne]

/-- A write to x0 is discarded. -/
@[simp] theorem writeReg_zero (s : State) (v : Word) : s.writeReg 0 v = s := rfl

@[simp] theorem writeReg_cfg (s : State) (r : RegIdx) (v : Word) : (s.writeReg r v).cfg = s.cfg := by
  unfold State.writeReg; split <;> rfl
@[simp] theorem writeReg_pc (s : State) (r : RegIdx) (v : Word) : (s.writeReg r v).pc = s.pc := by
  unfold State.writeReg; split <;> rfl
@[simp] theorem writeReg_mode (s : State) (r : RegIdx) (v : Word) : (s.writeReg r v).mode = s.mode := by
  unfold State.writeReg; split <;> rfl
@[simp] theorem writeReg_run (s : State) (r : RegIdx) (v : Word) : (s.writeReg r v).run = s.run := by
  unfold State.writeReg; split <;> rfl
@[simp] theorem writeReg_csr (s : State) (r : RegIdx) (v : Word) : (s.writeReg r v).csr = s.csr := by
  unfold State.writeReg; split <;> rfl
@[simp] theorem writeReg_resv (s : State) (r : RegIdx) (v : Word) : (s.writeReg r v).resv = s.resv := by
  unfold State.writeReg; split <;> rfl
@[simp] theorem writeReg_resvAddr (s : State) (r : RegIdx) (v : Word) : (s.writeReg r v).resvAddr = s.resvAddr := by
  unfold State.writeReg; split <;> rfl
@[simp] theorem writeReg_mem (s : State) (r : RegIdx) (v : Word) : (s.writeReg r v).mem = s.mem := by
  unfold State.writeReg; split <;> rfl
@[simp] theorem writeReg_uart (s : State) (r : RegIdx) (v : Word) : (s.writeReg r v).uart = s.uart := by
  unfold State.writeReg; split <;> rfl
@[simp] theorem writeReg_clint (s : State) (r : RegIdx) (v : Word) : (s.writeReg r v).clint = s.clint := by
  unfold State.writeReg; split <;> rfl
@[simp] theorem writeReg_plic (s : State) (r : RegIdx) (v : Word) : (s.writeReg r v).plic = s.plic := by
  unfold State.writeReg; split <;> rfl
@[simp] theorem writeReg_fb (s : State) (r : RegIdx) (v : Word) : (s.writeReg r v).fb = s.fb := by
  unfold State.writeReg; split <;> rfl
@[simp] theorem writeReg_timeSource (s : State) (r : RegIdx) (v : Word) : (s.writeReg r v).timeSource = s.timeSource := by
  unfold State.writeReg; split <;> rfl

/-! ## pc -/

@[simp] theorem setPc_cfg (s : State) (t : Word) : (s.setPc t).cfg = s.cfg := rfl
@[simp] theorem setPc_regs (s : State) (t : Word) : (s.setPc t).regs = s.regs := rfl
@[simp] theorem setPc_pc (s : State) (t : Word) : (s.setPc t).pc = t := rfl
@[simp] theorem setPc_mode (s : State) (t : Word) : (s.setPc t).mode = s.mode := rfl
@[simp] theorem setPc_run (s : State) (t : Word) : (s.setPc t).run = s.run := rfl
@[simp] theorem setPc_csr (s : State) (t : Word) : (s.setPc t).csr = s.csr := rfl
@[simp] theorem setPc_resv (s : State) (t : Word) : (s.setPc t).resv = s.resv := rfl
@[simp] theorem setPc_resvAddr (s : State) (t : Word) : (s.setPc t).resvAddr = s.resvAddr := rfl
@[simp] theorem setPc_mem (s : State) (t : Word) : (s.setPc t).mem = s.mem := rfl
@[simp] theorem setPc_uart (s : State) (t : Word) : (s.setPc t).uart = s.uart := rfl
@[simp] theorem setPc_clint (s : State) (t : Word) : (s.setPc t).clint = s.clint := rfl
@[simp] theorem setPc_plic (s : State) (t : Word) : (s.setPc t).plic = s.plic := rfl
@[simp] theorem setPc_fb (s : State) (t : Word) : (s.setPc t).fb = s.fb := rfl
@[simp] theorem setPc_timeSource (s : State) (t : Word) : (s.setPc t).timeSource = s.timeSource := rfl
@[simp] theorem setPc_readReg (s : State) (t : Word) (r : RegIdx) : (s.setPc t).readReg r = s.readReg r := rfl

@[simp] theorem advance_cfg (s : State) : (s.advance).cfg = s.cfg := rfl
@[simp] theorem advance_regs (s : State) : (s.advance).regs = s.regs := rfl
@[simp] theorem advance_pc (s : State) : (s.advance).pc = s.pc + 4#32 := rfl
@[simp] theorem advance_mode (s : State) : (s.advance).mode = s.mode := rfl
@[simp] theorem advance_run (s : State) : (s.advance).run = s.run := rfl
@[simp] theorem advance_csr (s : State) : (s.advance).csr = s.csr := rfl
@[simp] theorem advance_resv (s : State) : (s.advance).resv = s.resv := rfl
@[simp] theorem advance_resvAddr (s : State) : (s.advance).resvAddr = s.resvAddr := rfl
@[simp] theorem advance_mem (s : State) : (s.advance).mem = s.mem := rfl
@[simp] theorem advance_uart (s : State) : (s.advance).uart = s.uart := rfl
@[simp] theorem advance_clint (s : State) : (s.advance).clint = s.clint := rfl
@[simp] theorem advance_plic (s : State) : (s.advance).plic = s.plic := rfl
@[simp] theorem advance_fb (s : State) : (s.advance).fb = s.fb := rfl
@[simp] theorem advance_timeSource (s : State) : (s.advance).timeSource = s.timeSource := rfl
@[simp] theorem advance_readReg (s : State) (r : RegIdx) : s.advance.readReg r = s.readReg r := rfl

/-! ## `finish`: one register, then pc + 4 -/

@[simp] theorem finish_cfg (s : State) (rd : RegIdx) (v : Word) :
    (s.finish rd v).cfg = s.cfg := by simp [State.finish]
@[simp] theorem finish_pc (s : State) (rd : RegIdx) (v : Word) :
    (s.finish rd v).pc = s.pc + 4#32 := by simp [State.finish]
@[simp] theorem finish_mode (s : State) (rd : RegIdx) (v : Word) :
    (s.finish rd v).mode = s.mode := by simp [State.finish]
@[simp] theorem finish_run (s : State) (rd : RegIdx) (v : Word) :
    (s.finish rd v).run = s.run := by simp [State.finish]
@[simp] theorem finish_csr (s : State) (rd : RegIdx) (v : Word) :
    (s.finish rd v).csr = s.csr := by simp [State.finish]
@[simp] theorem finish_resv (s : State) (rd : RegIdx) (v : Word) :
    (s.finish rd v).resv = s.resv := by simp [State.finish]
@[simp] theorem finish_resvAddr (s : State) (rd : RegIdx) (v : Word) :
    (s.finish rd v).resvAddr = s.resvAddr := by simp [State.finish]
@[simp] theorem finish_mem (s : State) (rd : RegIdx) (v : Word) :
    (s.finish rd v).mem = s.mem := by simp [State.finish]
@[simp] theorem finish_uart (s : State) (rd : RegIdx) (v : Word) :
    (s.finish rd v).uart = s.uart := by simp [State.finish]
@[simp] theorem finish_clint (s : State) (rd : RegIdx) (v : Word) :
    (s.finish rd v).clint = s.clint := by simp [State.finish]
@[simp] theorem finish_plic (s : State) (rd : RegIdx) (v : Word) :
    (s.finish rd v).plic = s.plic := by simp [State.finish]
@[simp] theorem finish_fb (s : State) (rd : RegIdx) (v : Word) : (s.finish rd v).fb = s.fb := by simp [State.finish]
@[simp] theorem finish_timeSource (s : State) (rd : RegIdx) (v : Word) :
    (s.finish rd v).timeSource = s.timeSource := by simp [State.finish]

/-- The registers after `finish`. -/
theorem readReg_finish (s : State) (rd r : RegIdx) (v : Word) :
    (s.finish rd v).readReg r = if r = rd ∧ rd ≠ 0 then v else s.readReg r := readReg_writeReg s rd r v

/-! ## Halting (R392) -/

@[simp] theorem halt_cfg (s : State) (h : HaltReason) : (s.halt h).cfg = s.cfg := rfl
@[simp] theorem halt_regs (s : State) (h : HaltReason) : (s.halt h).regs = s.regs := rfl
@[simp] theorem halt_pc (s : State) (h : HaltReason) : (s.halt h).pc = s.pc := rfl
@[simp] theorem halt_mode (s : State) (h : HaltReason) : (s.halt h).mode = s.mode := rfl
@[simp] theorem halt_run (s : State) (h : HaltReason) : (s.halt h).run = .halted h := rfl
@[simp] theorem halt_csr (s : State) (h : HaltReason) : (s.halt h).csr = s.csr := rfl
@[simp] theorem halt_resv (s : State) (h : HaltReason) : (s.halt h).resv = s.resv := rfl
@[simp] theorem halt_resvAddr (s : State) (h : HaltReason) : (s.halt h).resvAddr = s.resvAddr := rfl
@[simp] theorem halt_mem (s : State) (h : HaltReason) : (s.halt h).mem = s.mem := rfl
@[simp] theorem halt_uart (s : State) (h : HaltReason) : (s.halt h).uart = s.uart := rfl
@[simp] theorem halt_clint (s : State) (h : HaltReason) : (s.halt h).clint = s.clint := rfl
@[simp] theorem halt_plic (s : State) (h : HaltReason) : (s.halt h).plic = s.plic := rfl
@[simp] theorem halt_fb (s : State) (h : HaltReason) : (s.halt h).fb = s.fb := rfl
@[simp] theorem halt_timeSource (s : State) (h : HaltReason) : (s.halt h).timeSource = s.timeSource := rfl

/-! ## The reservation (R330-R332) -/

@[simp] theorem reserve_cfg (s : State) (a : Word) : (s.reserve a).cfg = s.cfg := rfl
@[simp] theorem reserve_regs (s : State) (a : Word) : (s.reserve a).regs = s.regs := rfl
@[simp] theorem reserve_pc (s : State) (a : Word) : (s.reserve a).pc = s.pc := rfl
@[simp] theorem reserve_mode (s : State) (a : Word) : (s.reserve a).mode = s.mode := rfl
@[simp] theorem reserve_run (s : State) (a : Word) : (s.reserve a).run = s.run := rfl
@[simp] theorem reserve_csr (s : State) (a : Word) : (s.reserve a).csr = s.csr := rfl
@[simp] theorem reserve_resv (s : State) (a : Word) : (s.reserve a).resv = true := rfl
@[simp] theorem reserve_resvAddr (s : State) (a : Word) :
    (s.reserve a).resvAddr = if s.cfg.scAddressCheck then a else s.resvAddr := rfl
@[simp] theorem reserve_mem (s : State) (a : Word) : (s.reserve a).mem = s.mem := rfl
@[simp] theorem reserve_uart (s : State) (a : Word) : (s.reserve a).uart = s.uart := rfl
@[simp] theorem reserve_clint (s : State) (a : Word) : (s.reserve a).clint = s.clint := rfl
@[simp] theorem reserve_plic (s : State) (a : Word) : (s.reserve a).plic = s.plic := rfl
@[simp] theorem reserve_fb (s : State) (a : Word) : (s.reserve a).fb = s.fb := rfl
@[simp] theorem reserve_timeSource (s : State) (a : Word) : (s.reserve a).timeSource = s.timeSource := rfl
@[simp] theorem reserve_readReg (s : State) (a : Word) (r : RegIdx) : (s.reserve a).readReg r = s.readReg r := rfl

@[simp] theorem clearReservation_cfg (s : State) : (s.clearReservation).cfg = s.cfg := rfl
@[simp] theorem clearReservation_regs (s : State) : (s.clearReservation).regs = s.regs := rfl
@[simp] theorem clearReservation_pc (s : State) : (s.clearReservation).pc = s.pc := rfl
@[simp] theorem clearReservation_mode (s : State) : (s.clearReservation).mode = s.mode := rfl
@[simp] theorem clearReservation_run (s : State) : (s.clearReservation).run = s.run := rfl
@[simp] theorem clearReservation_csr (s : State) : (s.clearReservation).csr = s.csr := rfl
@[simp] theorem clearReservation_resv (s : State) : (s.clearReservation).resv = false := rfl
@[simp] theorem clearReservation_resvAddr (s : State) : (s.clearReservation).resvAddr = s.resvAddr := rfl
@[simp] theorem clearReservation_mem (s : State) : (s.clearReservation).mem = s.mem := rfl
@[simp] theorem clearReservation_uart (s : State) : (s.clearReservation).uart = s.uart := rfl
@[simp] theorem clearReservation_clint (s : State) : (s.clearReservation).clint = s.clint := rfl
@[simp] theorem clearReservation_plic (s : State) : (s.clearReservation).plic = s.plic := rfl
@[simp] theorem clearReservation_fb (s : State) : (s.clearReservation).fb = s.fb := rfl
@[simp] theorem clearReservation_timeSource (s : State) : (s.clearReservation).timeSource = s.timeSource := rfl
@[simp] theorem clearReservation_readReg (s : State) (r : RegIdx) :
    s.clearReservation.readReg r = s.readReg r := rfl

/-! ## Trap entry and return (R400, R367, R368) -/

@[simp] theorem enterMachine_cfg (s : State) (c : TrapCause) (e : Word) : (enterMachine c e s).cfg = s.cfg := rfl
@[simp] theorem enterMachine_regs (s : State) (c : TrapCause) (e : Word) : (enterMachine c e s).regs = s.regs := rfl
@[simp] theorem enterMachine_pc (s : State) (c : TrapCause) (e : Word) :
    (enterMachine c e s).pc = trapBase s.csr.mtvec := rfl
@[simp] theorem enterMachine_mode (s : State) (c : TrapCause) (e : Word) : (enterMachine c e s).mode = .machine := rfl
@[simp] theorem enterMachine_run (s : State) (c : TrapCause) (e : Word) : (enterMachine c e s).run = s.run := rfl
@[simp] theorem enterMachine_resv (s : State) (c : TrapCause) (e : Word) : (enterMachine c e s).resv = s.resv := rfl
@[simp] theorem enterMachine_resvAddr (s : State) (c : TrapCause) (e : Word) :
    (enterMachine c e s).resvAddr = s.resvAddr := rfl
@[simp] theorem enterMachine_mem (s : State) (c : TrapCause) (e : Word) : (enterMachine c e s).mem = s.mem := rfl
@[simp] theorem enterMachine_uart (s : State) (c : TrapCause) (e : Word) : (enterMachine c e s).uart = s.uart := rfl
@[simp] theorem enterMachine_clint (s : State) (c : TrapCause) (e : Word) :
    (enterMachine c e s).clint = s.clint := rfl
@[simp] theorem enterMachine_plic (s : State) (c : TrapCause) (e : Word) : (enterMachine c e s).plic = s.plic := rfl
@[simp] theorem enterMachine_fb (s : State) (c : TrapCause) (e : Word) : (enterMachine c e s).fb = s.fb := rfl
@[simp] theorem enterMachine_timeSource (s : State) (c : TrapCause) (e : Word) :
    (enterMachine c e s).timeSource = s.timeSource := rfl

@[simp] theorem enterSupervisor_cfg (s : State) (c : TrapCause) (e : Word) :
    (enterSupervisor c e s).cfg = s.cfg := rfl
@[simp] theorem enterSupervisor_regs (s : State) (c : TrapCause) (e : Word) :
    (enterSupervisor c e s).regs = s.regs := rfl
@[simp] theorem enterSupervisor_pc (s : State) (c : TrapCause) (e : Word) :
    (enterSupervisor c e s).pc = trapBase s.csr.stvec := rfl
@[simp] theorem enterSupervisor_mode (s : State) (c : TrapCause) (e : Word) :
    (enterSupervisor c e s).mode = .supervisor := rfl
@[simp] theorem enterSupervisor_run (s : State) (c : TrapCause) (e : Word) :
    (enterSupervisor c e s).run = s.run := rfl
@[simp] theorem enterSupervisor_resv (s : State) (c : TrapCause) (e : Word) :
    (enterSupervisor c e s).resv = s.resv := rfl
@[simp] theorem enterSupervisor_resvAddr (s : State) (c : TrapCause) (e : Word) :
    (enterSupervisor c e s).resvAddr = s.resvAddr := rfl
@[simp] theorem enterSupervisor_mem (s : State) (c : TrapCause) (e : Word) :
    (enterSupervisor c e s).mem = s.mem := rfl
@[simp] theorem enterSupervisor_uart (s : State) (c : TrapCause) (e : Word) :
    (enterSupervisor c e s).uart = s.uart := rfl
@[simp] theorem enterSupervisor_clint (s : State) (c : TrapCause) (e : Word) :
    (enterSupervisor c e s).clint = s.clint := rfl
@[simp] theorem enterSupervisor_plic (s : State) (c : TrapCause) (e : Word) :
    (enterSupervisor c e s).plic = s.plic := rfl
@[simp] theorem enterSupervisor_fb (s : State) (c : TrapCause) (e : Word) : (enterSupervisor c e s).fb = s.fb := rfl
@[simp] theorem enterSupervisor_timeSource (s : State) (c : TrapCause) (e : Word) :
    (enterSupervisor c e s).timeSource = s.timeSource := rfl

@[simp] theorem clearConsumed_cfg (s : State) (c : TrapCause) : (clearConsumed c s).cfg = s.cfg := by cases c <;> rfl
@[simp] theorem clearConsumed_regs (s : State) (c : TrapCause) :
    (clearConsumed c s).regs = s.regs := by cases c <;> rfl
@[simp] theorem clearConsumed_pc (s : State) (c : TrapCause) : (clearConsumed c s).pc = s.pc := by cases c <;> rfl
@[simp] theorem clearConsumed_mode (s : State) (c : TrapCause) :
    (clearConsumed c s).mode = s.mode := by cases c <;> rfl
@[simp] theorem clearConsumed_run (s : State) (c : TrapCause) : (clearConsumed c s).run = s.run := by cases c <;> rfl
@[simp] theorem clearConsumed_resv (s : State) (c : TrapCause) :
    (clearConsumed c s).resv = s.resv := by cases c <;> rfl
@[simp] theorem clearConsumed_resvAddr (s : State) (c : TrapCause) :
    (clearConsumed c s).resvAddr = s.resvAddr := by cases c <;> rfl
@[simp] theorem clearConsumed_mem (s : State) (c : TrapCause) : (clearConsumed c s).mem = s.mem := by cases c <;> rfl
@[simp] theorem clearConsumed_uart (s : State) (c : TrapCause) :
    (clearConsumed c s).uart = s.uart := by cases c <;> rfl
@[simp] theorem clearConsumed_clint (s : State) (c : TrapCause) :
    (clearConsumed c s).clint = s.clint := by cases c <;> rfl
@[simp] theorem clearConsumed_plic (s : State) (c : TrapCause) :
    (clearConsumed c s).plic = s.plic := by cases c <;> rfl
@[simp] theorem clearConsumed_fb (s : State) (c : TrapCause) : (clearConsumed c s).fb = s.fb := by cases c <;> rfl
@[simp] theorem clearConsumed_timeSource (s : State) (c : TrapCause) :
    (clearConsumed c s).timeSource = s.timeSource := by cases c <;> rfl

@[simp] theorem returnFromMachine_cfg (s : State) : (returnFromMachine s).cfg = s.cfg := rfl
@[simp] theorem returnFromMachine_regs (s : State) : (returnFromMachine s).regs = s.regs := rfl
@[simp] theorem returnFromMachine_pc (s : State) : (returnFromMachine s).pc = s.csr.mepc := rfl
@[simp] theorem returnFromMachine_mode (s : State) :
    (returnFromMachine s).mode = Mode.ofBits (mstatusMpp s.csr.mstatus) := rfl
@[simp] theorem returnFromMachine_run (s : State) : (returnFromMachine s).run = s.run := rfl
@[simp] theorem returnFromMachine_resv (s : State) : (returnFromMachine s).resv = s.resv := rfl
@[simp] theorem returnFromMachine_resvAddr (s : State) : (returnFromMachine s).resvAddr = s.resvAddr := rfl
@[simp] theorem returnFromMachine_mem (s : State) : (returnFromMachine s).mem = s.mem := rfl
@[simp] theorem returnFromMachine_uart (s : State) : (returnFromMachine s).uart = s.uart := rfl
@[simp] theorem returnFromMachine_clint (s : State) : (returnFromMachine s).clint = s.clint := rfl
@[simp] theorem returnFromMachine_plic (s : State) : (returnFromMachine s).plic = s.plic := rfl
@[simp] theorem returnFromMachine_fb (s : State) : (returnFromMachine s).fb = s.fb := rfl
@[simp] theorem returnFromMachine_timeSource (s : State) : (returnFromMachine s).timeSource = s.timeSource := rfl

@[simp] theorem returnFromSupervisor_cfg (s : State) : (returnFromSupervisor s).cfg = s.cfg := rfl
@[simp] theorem returnFromSupervisor_regs (s : State) : (returnFromSupervisor s).regs = s.regs := rfl
@[simp] theorem returnFromSupervisor_pc (s : State) : (returnFromSupervisor s).pc = s.csr.sepc := rfl
@[simp] theorem returnFromSupervisor_mode (s : State) :
    (returnFromSupervisor s).mode = if mstatusSpp s.csr.mstatus then .supervisor else .user := rfl
@[simp] theorem returnFromSupervisor_run (s : State) : (returnFromSupervisor s).run = s.run := rfl
@[simp] theorem returnFromSupervisor_resv (s : State) : (returnFromSupervisor s).resv = s.resv := rfl
@[simp] theorem returnFromSupervisor_resvAddr (s : State) : (returnFromSupervisor s).resvAddr = s.resvAddr := rfl
@[simp] theorem returnFromSupervisor_mem (s : State) : (returnFromSupervisor s).mem = s.mem := rfl
@[simp] theorem returnFromSupervisor_uart (s : State) : (returnFromSupervisor s).uart = s.uart := rfl
@[simp] theorem returnFromSupervisor_clint (s : State) : (returnFromSupervisor s).clint = s.clint := rfl
@[simp] theorem returnFromSupervisor_plic (s : State) : (returnFromSupervisor s).plic = s.plic := rfl
@[simp] theorem returnFromSupervisor_fb (s : State) : (returnFromSupervisor s).fb = s.fb := rfl
@[simp] theorem returnFromSupervisor_timeSource (s : State) :
    (returnFromSupervisor s).timeSource = s.timeSource := rfl

/-! ## The device levels (R421) -/

@[simp] theorem updatePending_cfg (s : State) : (updatePending s).cfg = s.cfg := rfl
@[simp] theorem updatePending_regs (s : State) : (updatePending s).regs = s.regs := rfl
@[simp] theorem updatePending_pc (s : State) : (updatePending s).pc = s.pc := rfl
@[simp] theorem updatePending_mode (s : State) : (updatePending s).mode = s.mode := rfl
@[simp] theorem updatePending_run (s : State) : (updatePending s).run = s.run := rfl
@[simp] theorem updatePending_resv (s : State) : (updatePending s).resv = s.resv := rfl
@[simp] theorem updatePending_resvAddr (s : State) : (updatePending s).resvAddr = s.resvAddr := rfl
@[simp] theorem updatePending_mem (s : State) : (updatePending s).mem = s.mem := rfl
@[simp] theorem updatePending_uart (s : State) : (updatePending s).uart = s.uart := rfl
@[simp] theorem updatePending_clint (s : State) : (updatePending s).clint = s.clint := rfl
@[simp] theorem updatePending_plic (s : State) :
    (updatePending s).plic = s.plic.gateways s.cfg.plicNSources (plicLevel s) := rfl
@[simp] theorem updatePending_fb (s : State) : (updatePending s).fb = s.fb := rfl
@[simp] theorem updatePending_timeSource (s : State) : (updatePending s).timeSource = s.timeSource := rfl

end Sys2Proof.Machine
end

