-- ==== Sys2Proof/Laws/Ops.lean ====
section
/-!
SUPPORT. Sys2Proof/Laws/Ops.lean: what each shared operation can do, said once: traps, the interrupt sampling, the CSR
accessors, and the forms the meanings are made of.
-/

namespace Sys2Proof.Machine

/-! ## Frames as relations -/

/-- Nothing changed. -/
theorem SameBeyondRegs.refl (s : State) : SameBeyondRegs s s :=
  ⟨rfl, rfl, rfl, rfl, rfl, rfl, rfl, rfl, rfl, rfl, rfl, rfl⟩

/-- `finish` changes the registers and pc only. -/
theorem finish_same (s : State) (rd : RegIdx) (v : Word) : SameBeyondRegs s (s.finish rd v) := by
  constructor <;> simp

/-- `setPc` changes pc only. -/
theorem setPc_same (s : State) (t : Word) : SameBeyondRegs s (s.setPc t) :=
  ⟨rfl, rfl, rfl, rfl, rfl, rfl, rfl, rfl, rfl, rfl, rfl, rfl⟩

/-- `writeReg` changes the registers only. -/
theorem writeReg_same (s : State) (rd : RegIdx) (v : Word) : SameBeyondRegs s (s.writeReg rd v) := by
  constructor <;> simp

/-- `finish` puts `v` into `rd`. -/
theorem finish_regWrite (s : State) (rd : RegIdx) (v : Word) : RegWrite rd v s (s.finish rd v) :=
  fun r => readReg_finish s rd r v

/-- An instruction whose meaning is `finish` completes, writes `rd` and changes nothing else. -/
theorem writesRd_of_finish (i : Instr) (rd : RegIdx) (v : Word) (s : State) (h : exec i s = .next (s.finish rd v)) :
    WritesRd i rd v s :=
  ⟨_, h, finish_regWrite s rd v, finish_pc s rd v, finish_same s rd v⟩

/-! ## The register forms -/

/-- A register-register form. -/
theorem regReg_eq (f : Word → Word → Word) (rd rs1 rs2 : RegIdx) (s : State) :
    regReg f rd rs1 rs2 s = .next (s.finish rd (f (s.readReg rs1) (s.readReg rs2))) := rfl

/-- A register-immediate form. -/
theorem regImm_eq (f : Word → Word → Word) (rd rs1 : RegIdx) (imm : BitVec 12) (s : State) :
    regImm f rd rs1 imm s = .next (s.finish rd (f (s.readReg rs1) (imm12 imm))) := rfl

/-- A shift-immediate form. -/
theorem regShamt_eq (f : Word → BitVec 5 → Word) (rd rs1 : RegIdx) (shamt : BitVec 5) (s : State) :
    regShamt f rd rs1 shamt s = .next (s.finish rd (f (s.readReg rs1) shamt)) := rfl

/-- A branch. -/
theorem branchIf_eq (cond : Word → Word → Bool) (rs1 rs2 : RegIdx) (off : BitVec 13) (s : State) :
    branchIf cond rs1 rs2 off s =
      .next { s with pc := if cond (s.readReg rs1) (s.readReg rs2) then branchTarget off s else s.pc + 4#32 } := by
  simp only [branchIf]
  split <;> rfl

/-! ## The memory forms -/

/-- All a load can do: read, then `finish`. -/
theorem loadWith_cases (n : Nat) (ext : Word → Word) (rd rs1 : RegIdx) (imm : BitVec 12) (s : State) :
    ∃ u p, loadWith n ext rd rs1 imm s =
      .next (({ s with uart := u, plic := p } : State).finish rd (ext (memRead n (effectiveAddress rs1 imm s) s).1)) := by
  obtain ⟨u, p, h⟩ := memRead_cases n (effectiveAddress rs1 imm s) s
  exact ⟨u, p, by simp only [loadWith, h]⟩

/-- All a store can do: write the bytes, then pc + 4. -/
theorem storeBytes_cases (n : Nat) (rs1 rs2 : RegIdx) (imm : BitVec 12) (s : State) :
    ∃ m u c p f, storeBytes n rs1 rs2 imm s =
      .next ({ s with mem := m, uart := u, clint := c, plic := p, fb := f } : State).advance := by
  obtain ⟨m, u, c, p, f, h⟩ := memWrite_cases n (effectiveAddress rs1 imm s) (s.readReg rs2) s
  exact ⟨m, u, c, p, f, by simp only [storeBytes, h]⟩

/-- All an AMO can do: read and write the word, then `finish` with the old word. -/
theorem amo_cases (op : Word → Word → Word) (rd rs1 rs2 : RegIdx) (s : State) :
    ∃ m u c p f, amo op rd rs1 rs2 s =
      .next (({ s with mem := m, uart := u, clint := c, plic := p, fb := f } : State).finish rd
        (memRead 4 (atomicAddress rs1 s) s).1) := by
  obtain ⟨u, p, h⟩ := memRead_cases 4 (atomicAddress rs1 s) s
  obtain ⟨m', u', c', p', f', h'⟩ := memWrite_cases 4 (atomicAddress rs1 s)
    (op (memRead 4 (atomicAddress rs1 s) s).1 (s.readReg rs2)) { s with uart := u, plic := p }
  refine ⟨m', u', c', p', f', ?_⟩
  simp only [amo, h, h']

/-- All an `lr.w` can do. -/
theorem execLrW_cases (rd rs1 : RegIdx) (s : State) :
    ∃ u p, execLrW rd rs1 s =
      .next ((({ s with uart := u, plic := p } : State).reserve (atomicAddress rs1 s)).finish rd
        (memRead 4 (atomicAddress rs1 s) s).1) := by
  obtain ⟨u, p, h⟩ := memRead_cases 4 (atomicAddress rs1 s) s
  exact ⟨u, p, by simp only [execLrW, h]⟩

/-- All an `sc.w` can do. -/
theorem execScW_cases (rd rs1 rs2 : RegIdx) (s : State) :
    (scSucceeds (atomicAddress rs1 s) s = true ∧ ∃ m u c p f, execScW rd rs1 rs2 s =
      .next (({ s with resv := false, mem := m, uart := u, clint := c, plic := p, fb := f } : State).finish rd 0#32)) ∨
    (scSucceeds (atomicAddress rs1 s) s = false ∧
      execScW rd rs1 rs2 s = .next (s.clearReservation.finish rd 1#32)) := by
  cases hs : scSucceeds (atomicAddress rs1 s) s
  · exact .inr ⟨rfl, by simp [execScW, hs]⟩
  · obtain ⟨m, u, c, p, f, h⟩ := memWrite_cases 4 (atomicAddress rs1 s) (s.readReg rs2) s.clearReservation
    exact .inl ⟨rfl, m, u, c, p, f, by simp only [execScW, hs, h]; rfl⟩

/-! ## CSR accesses (R44, R45, R350) -/

/-- A checked read answers `readValue` when the checks pass. -/
theorem csrGet_eq_some (c : CsrAddr) (s : State) (h : csrReadable c s = true) :
    csrGet c s = some (csrReadValue s.cfg s.csr c) := by simp [csrGet, h]

/-- A checked read answers nothing when a check fails. -/
theorem csrGet_eq_none (c : CsrAddr) (s : State) (h : csrReadable c s = false) : csrGet c s = none := by
  simp [csrGet, h]

/-- A checked write changes the file by `writeValue` when the checks pass. -/
theorem csrSet_eq_some (c : CsrAddr) (v : Word) (s : State) (h : csrWritable c s = true) :
    csrSet c v s = some { s with csr := csrWriteValue s.csr c v } := by simp [csrSet, h]

/-- A checked write answers nothing when a check fails. -/
theorem csrSet_eq_none (c : CsrAddr) (v : Word) (s : State) (h : csrWritable c s = false) : csrSet c v s = none := by
  simp [csrSet, h]

/-- All a CSR form can do: take IllegalInstruction, or read, or read and write. -/
theorem csrAccess_cases (rd : RegIdx) (c : CsrAddr) (new : Word → Option Word) (s : State) :
    csrAccess rd c new s = raise .illegalInstruction s ∨
    (csrReadable c s = true ∧ new (csrReadValue s.cfg s.csr c) = none ∧
      csrAccess rd c new s = .next (s.finish rd (csrReadValue s.cfg s.csr c))) ∨
    (csrWritable c s = true ∧ ∃ v, new (csrReadValue s.cfg s.csr c) = some v ∧
      csrAccess rd c new s =
        .next (({ s with csr := csrWriteValue s.csr c v } : State).finish rd (csrReadValue s.cfg s.csr c))) := by
  cases hr : csrReadable c s
  · left
    simp [csrAccess, csrGet_eq_none c s hr]
  · simp only [csrAccess, csrGet_eq_some c s hr, true_and]
    cases hn : new (csrReadValue s.cfg s.csr c) with
    | none => exact .inr (.inl ⟨rfl, rfl⟩)
    | some v =>
      cases hw : csrWritable c s
      · left
        simp [csrSet_eq_none c v s hw]
      · exact .inr (.inr ⟨rfl, v, rfl, by simp [csrSet_eq_some c v s hw]⟩)

/-! ## Traps (R400, R401) -/

/-- A trap goes to S or to M. -/
theorem trapTarget_cases (c : TrapCause) (s : State) : trapTarget c s = .supervisor ∨ trapTarget c s = .machine := by
  unfold trapTarget
  split <;> simp

/-- All trap entry can change: pc, the mode and the CSR file. -/
theorem trapEntry_cases (c : TrapCause) (epc : Word) (s : State) :
    ∃ f, trapEntry c epc s =
      { s with
        csr := f
        mode := trapTarget c s
        pc := if trapTarget c s = .supervisor then trapBase s.csr.stvec else trapBase s.csr.mtvec } := by
  unfold trapEntry
  rcases trapTarget_cases c s with h | h <;> rw [h] <;> cases c <;> exact ⟨_, rfl⟩

/-- What trap entry leaves of the CSR file: all but the four trap CSRs, `mstatus` and `mip`. -/
theorem trapEntry_csr (c : TrapCause) (epc : Word) (s : State) :
    ∃ ms ip me mc se sc, (trapEntry c epc s).csr =
      { s.csr with mstatus := ms, mip := ip, mepc := me, mcause := mc, sepc := se, scause := sc } := by
  unfold trapEntry
  rcases trapTarget_cases c s with h | h <;> rw [h] <;> cases c <;> exact ⟨_, _, _, _, _, _, rfl⟩

/-! ## Interrupt sampling (R420-R423) -/

/-- All `UpdatePendingFromDevices` can change: the PLIC's pending bits and `mip`. -/
theorem updatePending_cases (s : State) :
    ∃ p m, updatePending s = { s with plic := p, csr := { s.csr with mip := m } } := ⟨_, _, rfl⟩

/-- All a sampling can do: copy the levels, and take at most one interrupt that is ready (R424). -/
theorem sampleInterrupts_cases (s : State) :
    sampleInterrupts s = updatePending s ∨
    ∃ i, interruptReady i (updatePending s) = true ∧
      sampleInterrupts s = trapEntry (.interrupt i) (updatePending s).pc (updatePending s) := by
  unfold sampleInterrupts takeInterrupt
  cases h : interruptOrder.find? (fun i => interruptReady i (updatePending s)) with
  | none => exact .inl rfl
  | some i => exact .inr ⟨i, by simpa using List.find?_some h, rfl⟩

/-! ## The step (R390) -/

/-- A halted engine. -/
theorem step_halted (s : State) (r : HaltReason) (h : s.run = .halted r) : step s = .next s := by
  simp [step, h]

/-- A running engine. -/
theorem step_running (s : State) (h : s.run = .running) : step s = engineStep (timeStep s) := by
  simp [step, h]

/-- A word that decodes. -/
theorem engineStep_ok (s : State) (i : Instr) (h : decodeWord (fetch s).1 = .ok i) :
    engineStep s = mapNext endStep (exec i (fetch s).2) := by
  simp [engineStep, h]

/-- A word that does not. -/
theorem engineStep_error (s : State) (e : DecodeRefusal) (h : decodeWord (fetch s).1 = .error e) :
    engineStep s = .next ((fetch s).2.halt (haltReasonOf (fetch s).1 e)) := by
  simp [engineStep, h]

/-- A listed answer comes first. -/
@[simp] theorem ask_cons {α : Type} (free : Nat → α) (a : α) (l : List α) (k : Nat) :
    (Oracle.mk (a :: l) k).ask free = (a, ⟨l, k⟩) := rfl

/-- Beyond the list every answer is a free value of its own. -/
@[simp] theorem ask_nil {α : Type} (free : Nat → α) (k : Nat) :
    (Oracle.mk [] k).ask free = (free k, ⟨[], k + 1⟩) := rfl

/-- All the time source can change. -/
theorem timeStep_cases (s : State) :
    ∃ c o, timeStep s = { s with clint := c, timeSource := o } := ⟨_, _, rfl⟩

/-- All a fetch can change (R105, R111). -/
theorem fetch_cases (s : State) : ∃ u p, (fetch s).2 = { s with uart := u, plic := p } := memRead_cases 4 s.pc s

/-- What stands before `exec` in a step: the time source's and the fetch's effects. -/
theorem beforeExec_cases (s : State) :
    ∃ c o u p, (fetch (timeStep s)).2 = { s with clint := c, timeSource := o, uart := u, plic := p } := by
  obtain ⟨u, p, h⟩ := fetch_cases (timeStep s)
  obtain ⟨c, o, ht⟩ := timeStep_cases s
  exact ⟨c, o, u, p, by rw [h, ht]⟩

/-- All the end of a step can do. -/
theorem endStep_cases (s : State) :
    (s.run = .running ∧ endStep s = sampleInterrupts s) ∨ ((∃ r, s.run = .halted r) ∧ endStep s = s) := by
  unfold endStep
  cases h : s.run with
  | running => exact .inl ⟨rfl, rfl⟩
  | halted r => exact .inr ⟨⟨r, rfl⟩, rfl⟩

end Sys2Proof.Machine
end

