-- ==== Sys2Proof/Laws/Exec.lean ====
section
/-!
SUPPORT. Sys2Proof/Laws/Exec.lean: what each arm of `exec` is, in terms of the shared forms. All are true by definition;
they are stated so that no proof unfolds `exec` or matches a form against it.
-/

namespace Sys2Proof.Machine

/-! ## Integer -/

/-- `lui`. -/
theorem exec_lui (rd : RegIdx) (imm : BitVec 20) (s : State) :
    exec (.lui rd imm) s = .next (s.finish rd (immUpper imm)) := rfl

/-- `auipc`. -/
theorem exec_auipc (rd : RegIdx) (imm : BitVec 20) (s : State) :
    exec (.auipc rd imm) s = .next (s.finish rd (s.pc + immUpper imm)) := rfl

/-- `addi`. -/
theorem exec_addi (rd rs1 : RegIdx) (imm : BitVec 12) (s : State) :
    exec (.addi rd rs1 imm) s = .next (s.finish rd (s.readReg rs1 + imm12 imm)) := rfl

/-- `slti`. -/
theorem exec_slti (rd rs1 : RegIdx) (imm : BitVec 12) (s : State) :
    exec (.slti rd rs1 imm) s = .next (s.finish rd (boolWord (lessSigned (s.readReg rs1) (imm12 imm)))) := rfl

/-- `sltiu`. -/
theorem exec_sltiu (rd rs1 : RegIdx) (imm : BitVec 12) (s : State) :
    exec (.sltiu rd rs1 imm) s = .next (s.finish rd (boolWord (lessUnsigned (s.readReg rs1) (imm12 imm)))) := rfl

/-- `xori`. -/
theorem exec_xori (rd rs1 : RegIdx) (imm : BitVec 12) (s : State) :
    exec (.xori rd rs1 imm) s = .next (s.finish rd (s.readReg rs1 ^^^ imm12 imm)) := rfl

/-- `ori`. -/
theorem exec_ori (rd rs1 : RegIdx) (imm : BitVec 12) (s : State) :
    exec (.ori rd rs1 imm) s = .next (s.finish rd (s.readReg rs1 ||| imm12 imm)) := rfl

/-- `andi`. -/
theorem exec_andi (rd rs1 : RegIdx) (imm : BitVec 12) (s : State) :
    exec (.andi rd rs1 imm) s = .next (s.finish rd (s.readReg rs1 &&& imm12 imm)) := rfl

/-- `slli`. -/
theorem exec_slli (rd rs1 : RegIdx) (shamt : BitVec 5) (s : State) :
    exec (.slli rd rs1 shamt) s = .next (s.finish rd (shiftLeft (s.readReg rs1) shamt)) := rfl

/-- `srli`. -/
theorem exec_srli (rd rs1 : RegIdx) (shamt : BitVec 5) (s : State) :
    exec (.srli rd rs1 shamt) s = .next (s.finish rd (shiftRightLogical (s.readReg rs1) shamt)) := rfl

/-- `srai`. -/
theorem exec_srai (rd rs1 : RegIdx) (shamt : BitVec 5) (s : State) :
    exec (.srai rd rs1 shamt) s = .next (s.finish rd (shiftRightArith (s.readReg rs1) shamt)) := rfl

/-- `add`. -/
theorem exec_add (rd rs1 rs2 : RegIdx) (s : State) :
    exec (.add rd rs1 rs2) s = .next (s.finish rd (s.readReg rs1 + s.readReg rs2)) := rfl

/-- `sub`. -/
theorem exec_sub (rd rs1 rs2 : RegIdx) (s : State) :
    exec (.sub rd rs1 rs2) s = .next (s.finish rd (s.readReg rs1 - s.readReg rs2)) := rfl

/-- `sll`. -/
theorem exec_sll (rd rs1 rs2 : RegIdx) (s : State) :
    exec (.sll rd rs1 rs2) s = .next (s.finish rd (shiftLeft (s.readReg rs1) (shiftAmount (s.readReg rs2)))) := rfl

/-- `slt`. -/
theorem exec_slt (rd rs1 rs2 : RegIdx) (s : State) :
    exec (.slt rd rs1 rs2) s = .next (s.finish rd (boolWord (lessSigned (s.readReg rs1) (s.readReg rs2)))) := rfl

/-- `sltu`. -/
theorem exec_sltu (rd rs1 rs2 : RegIdx) (s : State) :
    exec (.sltu rd rs1 rs2) s = .next (s.finish rd (boolWord (lessUnsigned (s.readReg rs1) (s.readReg rs2)))) := rfl

/-- `xor`. -/
theorem exec_xor (rd rs1 rs2 : RegIdx) (s : State) :
    exec (.xor rd rs1 rs2) s = .next (s.finish rd (s.readReg rs1 ^^^ s.readReg rs2)) := rfl

/-- `srl`. -/
theorem exec_srl (rd rs1 rs2 : RegIdx) (s : State) :
    exec (.srl rd rs1 rs2) s =
      .next (s.finish rd (shiftRightLogical (s.readReg rs1) (shiftAmount (s.readReg rs2)))) := rfl

/-- `sra`. -/
theorem exec_sra (rd rs1 rs2 : RegIdx) (s : State) :
    exec (.sra rd rs1 rs2) s =
      .next (s.finish rd (shiftRightArith (s.readReg rs1) (shiftAmount (s.readReg rs2)))) := rfl

/-- `or`. -/
theorem exec_or (rd rs1 rs2 : RegIdx) (s : State) :
    exec (.or rd rs1 rs2) s = .next (s.finish rd (s.readReg rs1 ||| s.readReg rs2)) := rfl

/-- `and`. -/
theorem exec_and (rd rs1 rs2 : RegIdx) (s : State) :
    exec (.and rd rs1 rs2) s = .next (s.finish rd (s.readReg rs1 &&& s.readReg rs2)) := rfl

/-! ## Control transfer -/

/-- `jal`. -/
theorem exec_jal (rd : RegIdx) (off : BitVec 21) (s : State) :
    exec (.jal rd off) s = .next ((s.writeReg rd (linkValue s)).setPc (jumpTarget off s)) := rfl

/-- `jalr`. -/
theorem exec_jalr (rd rs1 : RegIdx) (imm : BitVec 12) (s : State) :
    exec (.jalr rd rs1 imm) s = .next ((s.writeReg rd (linkValue s)).setPc (jumpRegisterTarget rs1 imm s)) := rfl

/-- `beq`. -/
theorem exec_beq (rs1 rs2 : RegIdx) (off : BitVec 13) (s : State) :
    exec (.beq rs1 rs2 off) s = branchIf equalWords rs1 rs2 off s := rfl

/-- `bne`. -/
theorem exec_bne (rs1 rs2 : RegIdx) (off : BitVec 13) (s : State) :
    exec (.bne rs1 rs2 off) s = branchIf (fun a b => !equalWords a b) rs1 rs2 off s := rfl

/-- `blt`. -/
theorem exec_blt (rs1 rs2 : RegIdx) (off : BitVec 13) (s : State) :
    exec (.blt rs1 rs2 off) s = branchIf lessSigned rs1 rs2 off s := rfl

/-- `bge`. -/
theorem exec_bge (rs1 rs2 : RegIdx) (off : BitVec 13) (s : State) :
    exec (.bge rs1 rs2 off) s = branchIf (fun a b => !lessSigned a b) rs1 rs2 off s := rfl

/-- `bltu`. -/
theorem exec_bltu (rs1 rs2 : RegIdx) (off : BitVec 13) (s : State) :
    exec (.bltu rs1 rs2 off) s = branchIf lessUnsigned rs1 rs2 off s := rfl

/-- `bgeu`. -/
theorem exec_bgeu (rs1 rs2 : RegIdx) (off : BitVec 13) (s : State) :
    exec (.bgeu rs1 rs2 off) s = branchIf (fun a b => !lessUnsigned a b) rs1 rs2 off s := rfl

/-! ## Loads, stores and fences -/

/-- `lb`. -/
theorem exec_lb (rd rs1 : RegIdx) (imm : BitVec 12) (s : State) :
    exec (.lb rd rs1 imm) s = loadWith 1 signExtend8 rd rs1 imm s := rfl

/-- `lh`. -/
theorem exec_lh (rd rs1 : RegIdx) (imm : BitVec 12) (s : State) :
    exec (.lh rd rs1 imm) s = loadWith 2 signExtend16 rd rs1 imm s := rfl

/-- `lw`. -/
theorem exec_lw (rd rs1 : RegIdx) (imm : BitVec 12) (s : State) :
    exec (.lw rd rs1 imm) s = loadWith 4 (fun v => v) rd rs1 imm s := rfl

/-- `lbu`. -/
theorem exec_lbu (rd rs1 : RegIdx) (imm : BitVec 12) (s : State) :
    exec (.lbu rd rs1 imm) s = loadWith 1 zeroExtend8 rd rs1 imm s := rfl

/-- `lhu`. -/
theorem exec_lhu (rd rs1 : RegIdx) (imm : BitVec 12) (s : State) :
    exec (.lhu rd rs1 imm) s = loadWith 2 zeroExtend16 rd rs1 imm s := rfl

/-- `sb`. -/
theorem exec_sb (rs1 rs2 : RegIdx) (imm : BitVec 12) (s : State) :
    exec (.sb rs1 rs2 imm) s = storeBytes 1 rs1 rs2 imm s := rfl

/-- `sh`. -/
theorem exec_sh (rs1 rs2 : RegIdx) (imm : BitVec 12) (s : State) :
    exec (.sh rs1 rs2 imm) s = storeBytes 2 rs1 rs2 imm s := rfl

/-- `sw`. -/
theorem exec_sw (rs1 rs2 : RegIdx) (imm : BitVec 12) (s : State) :
    exec (.sw rs1 rs2 imm) s = storeBytes 4 rs1 rs2 imm s := rfl

/-- `fence`. -/
theorem exec_fence (s : State) :
    exec .fence s = .next s.advance := rfl

/-- `fenceI`. -/
theorem exec_fenceI (s : State) :
    exec .fenceI s = .next s.advance := rfl

/-! ## Multiply and divide -/

/-- `mul`. -/
theorem exec_mul (rd rs1 rs2 : RegIdx) (s : State) :
    exec (.mul rd rs1 rs2) s = .next (s.finish rd (lowWord ((s.readReg rs1).toInt * (s.readReg rs2).toInt))) := rfl

/-- `mulh`. -/
theorem exec_mulh (rd rs1 rs2 : RegIdx) (s : State) :
    exec (.mulh rd rs1 rs2) s = .next (s.finish rd (highWord ((s.readReg rs1).toInt * (s.readReg rs2).toInt))) := rfl

/-- `mulhsu`. -/
theorem exec_mulhsu (rd rs1 rs2 : RegIdx) (s : State) :
    exec (.mulhsu rd rs1 rs2) s =
      .next (s.finish rd (highWord ((s.readReg rs1).toInt * ((s.readReg rs2).toNat : Int)))) := rfl

/-- `mulhu`. -/
theorem exec_mulhu (rd rs1 rs2 : RegIdx) (s : State) :
    exec (.mulhu rd rs1 rs2) s =
      .next (s.finish rd (highWord (((s.readReg rs1).toNat : Int) * ((s.readReg rs2).toNat : Int)))) := rfl

/-- `div`. -/
theorem exec_div (rd rs1 rs2 : RegIdx) (s : State) :
    exec (.div rd rs1 rs2) s =
      .next (s.finish rd (lowWord (signedQuotient (s.readReg rs1).toInt (s.readReg rs2).toInt))) := rfl

/-- `divu`. -/
theorem exec_divu (rd rs1 rs2 : RegIdx) (s : State) :
    exec (.divu rd rs1 rs2) s =
      .next (s.finish rd (BitVec.ofNat 32 (unsignedQuotient (s.readReg rs1).toNat (s.readReg rs2).toNat))) := rfl

/-- `rem`. -/
theorem exec_rem (rd rs1 rs2 : RegIdx) (s : State) :
    exec (.rem rd rs1 rs2) s =
      .next (s.finish rd (lowWord (signedRemainder (s.readReg rs1).toInt (s.readReg rs2).toInt))) := rfl

/-- `remu`. -/
theorem exec_remu (rd rs1 rs2 : RegIdx) (s : State) :
    exec (.remu rd rs1 rs2) s =
      .next (s.finish rd (BitVec.ofNat 32 (unsignedRemainder (s.readReg rs1).toNat (s.readReg rs2).toNat))) := rfl

/-! ## Atomics -/

/-- `lrW`. -/
theorem exec_lrW (rd rs1 : RegIdx) (s : State) :
    exec (.lrW rd rs1) s = execLrW rd rs1 s := rfl

/-- `scW`. -/
theorem exec_scW (rd rs1 rs2 : RegIdx) (s : State) :
    exec (.scW rd rs1 rs2) s = execScW rd rs1 rs2 s := rfl

/-- `amoswapW`. -/
theorem exec_amoswapW (rd rs1 rs2 : RegIdx) (s : State) :
    exec (.amoswapW rd rs1 rs2) s = amo (fun _ src => src) rd rs1 rs2 s := rfl

/-- `amoaddW`. -/
theorem exec_amoaddW (rd rs1 rs2 : RegIdx) (s : State) :
    exec (.amoaddW rd rs1 rs2) s = amo (fun old src => old + src) rd rs1 rs2 s := rfl

/-- `amoxorW`. -/
theorem exec_amoxorW (rd rs1 rs2 : RegIdx) (s : State) :
    exec (.amoxorW rd rs1 rs2) s = amo (fun old src => old ^^^ src) rd rs1 rs2 s := rfl

/-- `amoandW`. -/
theorem exec_amoandW (rd rs1 rs2 : RegIdx) (s : State) :
    exec (.amoandW rd rs1 rs2) s = amo (fun old src => old &&& src) rd rs1 rs2 s := rfl

/-- `amoorW`. -/
theorem exec_amoorW (rd rs1 rs2 : RegIdx) (s : State) :
    exec (.amoorW rd rs1 rs2) s = amo (fun old src => old ||| src) rd rs1 rs2 s := rfl

/-- `amominW`. -/
theorem exec_amominW (rd rs1 rs2 : RegIdx) (s : State) :
    exec (.amominW rd rs1 rs2) s = amo (fun old src => if lessSigned src old then src else old) rd rs1 rs2 s := rfl

/-- `amomaxW`. -/
theorem exec_amomaxW (rd rs1 rs2 : RegIdx) (s : State) :
    exec (.amomaxW rd rs1 rs2) s = amo (fun old src => if lessSigned old src then src else old) rd rs1 rs2 s := rfl

/-- `amominuW`. -/
theorem exec_amominuW (rd rs1 rs2 : RegIdx) (s : State) :
    exec (.amominuW rd rs1 rs2) s = amo (fun old src => if lessUnsigned src old then src else old) rd rs1 rs2 s := rfl

/-- `amomaxuW`. -/
theorem exec_amomaxuW (rd rs1 rs2 : RegIdx) (s : State) :
    exec (.amomaxuW rd rs1 rs2) s = amo (fun old src => if lessUnsigned old src then src else old) rd rs1 rs2 s := rfl

/-! ## System -/

/-- `csrrw`. -/
theorem exec_csrrw (rd : RegIdx) (csr : CsrAddr) (rs1 : RegIdx) (s : State) :
    exec (.csrrw rd csr rs1) s =
      csrAccess rd csr (fun _ => some (s.readReg rs1)) s := rfl

/-- `csrrs`. -/
theorem exec_csrrs (rd : RegIdx) (csr : CsrAddr) (rs1 : RegIdx) (s : State) :
    exec (.csrrs rd csr rs1) s =
      csrAccess rd csr (fun old => if setClrWrites rs1 s then some (old ||| s.readReg rs1) else none) s := rfl

/-- `csrrc`. -/
theorem exec_csrrc (rd : RegIdx) (csr : CsrAddr) (rs1 : RegIdx) (s : State) :
    exec (.csrrc rd csr rs1) s =
      csrAccess rd csr (fun old => if setClrWrites rs1 s then some (old &&& ~~~(s.readReg rs1)) else none) s := rfl

/-- `csrrwi`. -/
theorem exec_csrrwi (rd : RegIdx) (csr : CsrAddr) (zimm : BitVec 5) (s : State) :
    exec (.csrrwi rd csr zimm) s =
      csrAccess rd csr (fun _ => some (zimm32 zimm)) s := rfl

/-- `csrrsi`. -/
theorem exec_csrrsi (rd : RegIdx) (csr : CsrAddr) (zimm : BitVec 5) (s : State) :
    exec (.csrrsi rd csr zimm) s =
      csrAccess rd csr (fun old => if zimm ≠ 0#5 then some (old ||| zimm32 zimm) else none) s := rfl

/-- `csrrci`. -/
theorem exec_csrrci (rd : RegIdx) (csr : CsrAddr) (zimm : BitVec 5) (s : State) :
    exec (.csrrci rd csr zimm) s =
      csrAccess rd csr (fun old => if zimm ≠ 0#5 then some (old &&& ~~~(zimm32 zimm)) else none) s := rfl

/-- `ecall`. -/
theorem exec_ecall (s : State) :
    exec .ecall s = execEcall s := rfl

/-- `ebreak`. -/
theorem exec_ebreak (s : State) :
    exec .ebreak s = execEbreak s := rfl

/-- `mret`. -/
theorem exec_mret (s : State) :
    exec .mret s = execMret s := rfl

/-- `sret`. -/
theorem exec_sret (s : State) :
    exec .sret s = execSret s := rfl

/-- `wfi`. -/
theorem exec_wfi (s : State) :
    exec .wfi s = execWfi s := rfl

end Sys2Proof.Machine
end

