-- ==== Sys2Proof/Laws/ExecCases.lean ====
section
/-!
SUPPORT. Sys2Proof/Laws/ExecCases.lean: all that one instruction can do, said once: the thirteen shapes of the state
`exec` answers. A whole-machine claim is a case analysis over these shapes and not over the 69 instructions.
-/

namespace Sys2Proof.Machine

/-- The registers of `s` after at most one register write, to the destination register of `i`. -/
def OneRegWrite (i : Instr) (s : State) (r : Vector Word 32) : Prop :=
  ∃ x v, (x ≠ 0 → destination i = some x) ∧ r = (s.writeReg x v).regs

/-- LB, LH, LW, LBU and LHU. -/
def isLoad : Instr → Bool
  | .lb _ _ _ | .lh _ _ _ | .lw _ _ _ | .lbu _ _ _ | .lhu _ _ _ => true
  | _ => false

/-- The shapes of the state after an instruction `i` at `s`. -/
inductive ExecShape (i : Instr) (s : State) : State → Prop
  /-- Registers and pc only. -/
  | regs (r : Vector Word 32) (pc : Word) (hr : OneRegWrite i s r) (hw : writesMemory i = false)
      (ht : isTrapReturn i = false) : ExecShape i s { s with regs := r, pc := pc }
  /-- A taken exception. -/
  | trap (e : Exception) (hw : writesMemory i = false) (hc : touchesCsrs i = true) (hi : i ≠ .wfi) :
      ExecShape i s (trapEntry (.exception e) s.pc s)
  /-- A halt. -/
  | halt (reason : HaltReason) (hi : i = .ecall ∨ i = .ebreak) :
      ExecShape i s { s with run := .halted reason }
  /-- A load. -/
  | load (n : Nat) (a : Word) (r : Vector Word 32) (pc : Word) (hr : OneRegWrite i s r) (hi : isLoad i = true)
      (hw : writesMemory i = false) (ht : isTrapReturn i = false) :
      ExecShape i s { (memRead n a s).2 with regs := r, pc := pc }
  /-- `lr.w`. -/
  | lr (a : Word) (r : Vector Word 32) (pc ra : Word) (hr : OneRegWrite i s r) (hi : ∃ x y, i = .lrW x y) :
      ExecShape i s { (memRead 4 a s).2 with regs := r, pc := pc, resv := true, resvAddr := ra }
  /-- A store. -/
  | store (n : Nat) (a v : Word) (r : Vector Word 32) (pc : Word) (hr : OneRegWrite i s r) (hw : writesMemory i = true)
      (ht : isTrapReturn i = false) : ExecShape i s { memWrite n a v s with regs := r, pc := pc }
  /-- An AMO. -/
  | amo (a v : Word) (r : Vector Word 32) (pc : Word) (hr : OneRegWrite i s r) (hw : writesMemory i = true)
      (ht : isTrapReturn i = false) : ExecShape i s { memWrite 4 a v (memRead 4 a s).2 with regs := r, pc := pc }
  /-- An `sc.w` that succeeds. -/
  | scSuccess (a v : Word) (r : Vector Word 32) (pc : Word) (hr : OneRegWrite i s r) (hi : ∃ x y z, i = .scW x y z) :
      ExecShape i s { memWrite 4 a v s.clearReservation with regs := r, pc := pc }
  /-- An `sc.w` that fails. -/
  | scFailure (r : Vector Word 32) (pc : Word) (hr : OneRegWrite i s r) (hi : ∃ x y z, i = .scW x y z) :
      ExecShape i s { s with regs := r, pc := pc, resv := false }
  /-- A CSR form that writes, with its checks passed. -/
  | csr (c : CsrAddr) (v : Word) (r : Vector Word 32) (pc : Word) (hr : OneRegWrite i s r) (hc : csrWritable c s = true)
      (hi : touchesCsrs i = true) (hw : writesMemory i = false) (ht : isTrapReturn i = false) :
      ExecShape i s { s with csr := csrWriteValue s.csr c v, regs := r, pc := pc }
  /-- `mret`. -/
  | mret (hi : i = .mret) : ExecShape i s (returnFromMachine s)
  /-- `sret`. -/
  | sret (hi : i = .sret) : ExecShape i s (returnFromSupervisor s)
  /-- `wfi`. -/
  | wfi (pc : Word) (hi : i = .wfi) : ExecShape i s { updatePending s with pc := pc }

/-- Two next states of one outcome are the same. -/
theorem shape_of_eq {i : Instr} {s u t : State} {r : Result} (h : r = .next u) (hs : ExecShape i s u)
    (ht : r = .next t) : ExecShape i s t := by
  rw [h] at ht
  injection ht with e
  exact e ▸ hs

/-- `finish` as a record update. -/
theorem finish_eq (s : State) (rd : RegIdx) (v : Word) :
    s.finish rd v = { s with regs := (s.writeReg rd v).regs, pc := s.pc + 4#32 } := by
  unfold State.finish State.advance State.setPc State.writeReg
  split <;> rfl

/-- A register write followed by a jump, as a record update. -/
theorem writeReg_setPc_eq (s : State) (rd : RegIdx) (v t : Word) :
    (s.writeReg rd v).setPc t = { s with regs := (s.writeReg rd v).regs, pc := t } := by
  unfold State.setPc State.writeReg
  split <;> rfl

/-- The end of `lr.w`, as a record update. -/
theorem reserve_finish_eq (u : State) (ea : Word) (rd : RegIdx) (v : Word) :
    (u.reserve ea).finish rd v =
      { u with
        regs := ((u.reserve ea).writeReg rd v).regs, pc := u.pc + 4#32, resv := true,
        resvAddr := if u.cfg.scAddressCheck then ea else u.resvAddr } := by
  rw [finish_eq]
  rfl

/-- A register write depends on the registers alone. -/
theorem oneRegWrite_of_regs_eq {i : Instr} {s t : State} (h : t.regs = s.regs) (x : RegIdx) (v : Word)
    (hd : destination i = some x) : OneRegWrite i s (t.writeReg x v).regs := by
  refine ⟨x, v, fun _ => hd, ?_⟩
  unfold State.writeReg
  split <;> simp [h]

/-- No register write at all. -/
theorem oneRegWrite_refl (i : Instr) (s : State) : OneRegWrite i s s.regs := ⟨0, 0#32, fun h => absurd rfl h, rfl⟩

/-- A register that is not the destination keeps its value. -/
theorem oneRegWrite_readReg {i : Instr} {s t : State} (h : OneRegWrite i s t.regs) (r : RegIdx)
    (hr : destination i ≠ some r) : t.readReg r = s.readReg r := by
  obtain ⟨x, v, hd, e⟩ := h
  unfold State.readReg
  rw [e]
  split
  · rfl
  · unfold State.writeReg
    split
    · rfl
    · rename_i hx
      have hne : x ≠ r := fun h => hr (h ▸ hd hx)
      simp [Fin.getElem_fin, Fin.val_ne_of_ne hne]

/-- Reading memory keeps the registers. -/
theorem memRead_regs (n : Nat) (a : Word) (s : State) : (memRead n a s).2.regs = s.regs := by
  obtain ⟨u, p, h⟩ := memRead_cases n a s
  rw [h]

/-- Writing memory keeps the registers. -/
theorem memWrite_regs (n : Nat) (a v : Word) (s : State) : (memWrite n a v s).regs = s.regs := by
  obtain ⟨m, u, c, p, f, h⟩ := memWrite_cases n a v s
  rw [h]

section Shapes

variable {i : Instr} {s t : State}

theorem shape_finish (rd : RegIdx) (v : Word) (hd : destination i = some rd) (hw : writesMemory i = false)
    (ht : isTrapReturn i = false) : ExecShape i s (s.finish rd v) := by
  rw [finish_eq]
  exact .regs _ _ (oneRegWrite_of_regs_eq rfl rd v hd) hw ht

theorem shape_setPc (a : Word) (hw : writesMemory i = false) (ht : isTrapReturn i = false) :
    ExecShape i s (s.setPc a) :=
  .regs s.regs _ (oneRegWrite_refl i s) hw ht

theorem shape_load {n : Nat} {ext : Word → Word} {rd rs1 : RegIdx} {imm : BitVec 12} (hd : destination i = some rd)
    (hi : isLoad i = true) (hw : writesMemory i = false) (ht : isTrapReturn i = false)
    (h : loadWith n ext rd rs1 imm s = .next t) : ExecShape i s t := by
  refine shape_of_eq rfl ?_ h
  rw [finish_eq]
  exact .load _ _ _ _ (oneRegWrite_of_regs_eq (memRead_regs ..) _ _ hd) hi hw ht

theorem shape_store {n : Nat} {rs1 rs2 : RegIdx} {imm : BitVec 12} (hw : writesMemory i = true)
    (ht : isTrapReturn i = false) (h : storeBytes n rs1 rs2 imm s = .next t) : ExecShape i s t :=
  shape_of_eq rfl (.store n (effectiveAddress rs1 imm s) (s.readReg rs2)
    (memWrite n (effectiveAddress rs1 imm s) (s.readReg rs2) s).regs _
    ⟨0, 0#32, fun h => absurd rfl h, memWrite_regs ..⟩ hw ht) h

theorem shape_amo {op : Word → Word → Word} {rd rs1 rs2 : RegIdx} (hd : destination i = some rd)
    (hw : writesMemory i = true) (ht : isTrapReturn i = false)
    (h : amo op rd rs1 rs2 s = .next t) : ExecShape i s t := by
  refine shape_of_eq rfl ?_ h
  rw [finish_eq]
  exact .amo _ _ _ _ (oneRegWrite_of_regs_eq (by rw [memWrite_regs, memRead_regs]) _ _ hd) hw ht

theorem shape_csr {rd : RegIdx} {c : CsrAddr} {new : Word → Option Word} (hd : destination i = some rd)
    (hi : touchesCsrs i = true) (hw : writesMemory i = false) (ht : isTrapReturn i = false) (hn : i ≠ .wfi)
    (h : csrAccess rd c new s = .next t) : ExecShape i s t := by
  rcases csrAccess_cases rd c new s with e | ⟨_, _, e⟩ | ⟨hc, v, _, e⟩
  · exact shape_of_eq e (.trap _ hw hi hn) h
  · exact shape_of_eq e (shape_finish _ _ hd hw ht) h
  · refine shape_of_eq e ?_ h
    rw [finish_eq]
    exact .csr c v _ _
      (oneRegWrite_of_regs_eq (s := s) (t := { s with csr := csrWriteValue s.csr c v }) rfl _ _ hd) hc hi hw ht

theorem shape_lr {rd rs1 : RegIdx} (h : execLrW rd rs1 s = .next t) : ExecShape (.lrW rd rs1) s t := by
  have e : execLrW rd rs1 s = .next _ := congrArg Host.Outcome.next
    (reserve_finish_eq (memRead 4 (atomicAddress rs1 s) s).2 (atomicAddress rs1 s) rd
      (memRead 4 (atomicAddress rs1 s) s).1)
  exact shape_of_eq e (.lr _ _ _ _
    (oneRegWrite_of_regs_eq (by rw [reserve_regs, memRead_regs]) _ _ rfl) ⟨_, _, rfl⟩) h

theorem shape_sc {rd rs1 rs2 : RegIdx} (h : execScW rd rs1 rs2 s = .next t) : ExecShape (.scW rd rs1 rs2) s t := by
  simp only [execScW] at h
  split at h
  · refine shape_of_eq rfl ?_ h
    rw [finish_eq]
    exact .scSuccess (atomicAddress rs1 s) (s.readReg rs2) _ _
      (oneRegWrite_of_regs_eq (by rw [memWrite_regs]; rfl) _ _ rfl) ⟨_, _, _, rfl⟩
  · refine shape_of_eq rfl ?_ h
    rw [finish_eq]
    exact .scFailure _ _ (oneRegWrite_of_regs_eq (s := s) (t := s.clearReservation) rfl rd 1#32 rfl) ⟨_, _, _, rfl⟩

theorem shape_ecall (h : execEcall s = .next t) : ExecShape .ecall s t := by
  unfold execEcall at h
  split at h
  · exact shape_of_eq rfl (.halt _ (.inl rfl)) h
  · split at h
    · exact shape_of_eq rfl (.trap _ rfl rfl (by decide)) h
    · exact shape_of_eq rfl (shape_setPc _ rfl rfl) h

theorem shape_ebreak (h : execEbreak s = .next t) : ExecShape .ebreak s t := by
  unfold execEbreak at h
  split at h
  · exact shape_of_eq rfl (shape_setPc _ rfl rfl) h
  · exact shape_of_eq rfl (.trap _ rfl rfl (by decide)) h
  · exact shape_of_eq rfl (.halt _ (.inr rfl)) h

theorem shape_mret (h : execMret s = .next t) : ExecShape .mret s t := by
  unfold execMret at h
  split at h
  · exact shape_of_eq rfl (.trap _ rfl rfl (by decide)) h
  · exact shape_of_eq rfl (.mret rfl) h

theorem shape_sret (h : execSret s = .next t) : ExecShape .sret s t := by
  unfold execSret at h
  split at h
  · exact shape_of_eq rfl (.trap _ rfl rfl (by decide)) h
  · exact shape_of_eq rfl (.sret rfl) h

theorem shape_wfi (h : execWfi s = .next t) : ExecShape .wfi s t := by
  refine shape_of_eq rfl ?_ h
  split
  · exact .wfi _ rfl
  · exact .wfi (updatePending s).pc rfl

end Shapes

/-- The inversion of `exec`: what an instruction that answers `t` has done. -/
theorem exec_cases (i : Instr) (s t : State) (h : exec i s = .next t) : ExecShape i s t := by
  cases i
  case jal rd off =>
    rw [exec_jal, writeReg_setPc_eq] at h
    exact shape_of_eq rfl (.regs _ _ (oneRegWrite_of_regs_eq rfl _ _ rfl) rfl rfl) h
  case jalr rd rs1 imm =>
    rw [exec_jalr, writeReg_setPc_eq] at h
    exact shape_of_eq rfl (.regs _ _ (oneRegWrite_of_regs_eq rfl _ _ rfl) rfl rfl) h
  case beq => rw [exec_beq] at h; exact shape_of_eq (branchIf_eq ..) (shape_setPc _ rfl rfl) h
  case bne => rw [exec_bne] at h; exact shape_of_eq (branchIf_eq ..) (shape_setPc _ rfl rfl) h
  case blt => rw [exec_blt] at h; exact shape_of_eq (branchIf_eq ..) (shape_setPc _ rfl rfl) h
  case bge => rw [exec_bge] at h; exact shape_of_eq (branchIf_eq ..) (shape_setPc _ rfl rfl) h
  case bltu => rw [exec_bltu] at h; exact shape_of_eq (branchIf_eq ..) (shape_setPc _ rfl rfl) h
  case bgeu => rw [exec_bgeu] at h; exact shape_of_eq (branchIf_eq ..) (shape_setPc _ rfl rfl) h
  case lb => rw [exec_lb] at h; exact shape_load rfl rfl rfl rfl h
  case lh => rw [exec_lh] at h; exact shape_load rfl rfl rfl rfl h
  case lw => rw [exec_lw] at h; exact shape_load rfl rfl rfl rfl h
  case lbu => rw [exec_lbu] at h; exact shape_load rfl rfl rfl rfl h
  case lhu => rw [exec_lhu] at h; exact shape_load rfl rfl rfl rfl h
  case sb => rw [exec_sb] at h; exact shape_store rfl rfl h
  case sh => rw [exec_sh] at h; exact shape_store rfl rfl h
  case sw => rw [exec_sw] at h; exact shape_store rfl rfl h
  case fence | fenceI => exact shape_of_eq rfl (shape_setPc _ rfl rfl) h
  case lrW => rw [exec_lrW] at h; exact shape_lr h
  case scW => rw [exec_scW] at h; exact shape_sc h
  case amoswapW => rw [exec_amoswapW] at h; exact shape_amo rfl rfl rfl h
  case amoaddW => rw [exec_amoaddW] at h; exact shape_amo rfl rfl rfl h
  case amoxorW => rw [exec_amoxorW] at h; exact shape_amo rfl rfl rfl h
  case amoandW => rw [exec_amoandW] at h; exact shape_amo rfl rfl rfl h
  case amoorW => rw [exec_amoorW] at h; exact shape_amo rfl rfl rfl h
  case amominW => rw [exec_amominW] at h; exact shape_amo rfl rfl rfl h
  case amomaxW => rw [exec_amomaxW] at h; exact shape_amo rfl rfl rfl h
  case amominuW => rw [exec_amominuW] at h; exact shape_amo rfl rfl rfl h
  case amomaxuW => rw [exec_amomaxuW] at h; exact shape_amo rfl rfl rfl h
  case csrrw => rw [exec_csrrw] at h; exact shape_csr rfl rfl rfl rfl Instr.noConfusion h
  case csrrs => rw [exec_csrrs] at h; exact shape_csr rfl rfl rfl rfl Instr.noConfusion h
  case csrrc => rw [exec_csrrc] at h; exact shape_csr rfl rfl rfl rfl Instr.noConfusion h
  case csrrwi => rw [exec_csrrwi] at h; exact shape_csr rfl rfl rfl rfl Instr.noConfusion h
  case csrrsi => rw [exec_csrrsi] at h; exact shape_csr rfl rfl rfl rfl Instr.noConfusion h
  case csrrci => rw [exec_csrrci] at h; exact shape_csr rfl rfl rfl rfl Instr.noConfusion h
  case ecall => exact shape_ecall h
  case ebreak => exact shape_ebreak h
  case mret => exact shape_mret h
  case sret => exact shape_sret h
  case wfi => exact shape_wfi h
  all_goals exact shape_of_eq rfl (shape_finish _ _ rfl rfl rfl) h

end Sys2Proof.Machine
end

