-- ==== Sys2Proof/Laws/PerInstr.lean ====
section
/-!
SUPPORT. Sys2Proof/Laws/PerInstr.lean: facts about every instruction as syntax, one lemma per constructor.

The family `EncodedOpcode`: the word of an instruction has the major opcode of its group in the table of 30_encoding.md
R185.
-/

namespace Sys2Proof.Laws

/-- The major opcode of an instruction's group (R185). -/
def majorOpcode : Instr → BitVec 7
  | .lb _ _ _ | .lh _ _ _ | .lw _ _ _ | .lbu _ _ _ | .lhu _ _ _ => 0b0000011#7
  | .fence | .fenceI => 0b0001111#7
  | .addi _ _ _ | .slti _ _ _ | .sltiu _ _ _ | .xori _ _ _ | .ori _ _ _ | .andi _ _ _ | .slli _ _ _
  | .srli _ _ _ | .srai _ _ _ => 0b0010011#7
  | .auipc _ _ => 0b0010111#7
  | .sb _ _ _ | .sh _ _ _ | .sw _ _ _ => 0b0100011#7
  | .lrW _ _ | .scW _ _ _ | .amoswapW _ _ _ | .amoaddW _ _ _ | .amoxorW _ _ _ | .amoandW _ _ _
  | .amoorW _ _ _ | .amominW _ _ _ | .amomaxW _ _ _ | .amominuW _ _ _ | .amomaxuW _ _ _ => 0b0101111#7
  | .add _ _ _ | .sub _ _ _ | .sll _ _ _ | .slt _ _ _ | .sltu _ _ _ | .xor _ _ _ | .srl _ _ _
  | .sra _ _ _ | .or _ _ _ | .and _ _ _ | .mul _ _ _ | .mulh _ _ _ | .mulhsu _ _ _ | .mulhu _ _ _
  | .div _ _ _ | .divu _ _ _ | .rem _ _ _ | .remu _ _ _ => 0b0110011#7
  | .lui _ _ => 0b0110111#7
  | .beq _ _ _ | .bne _ _ _ | .blt _ _ _ | .bge _ _ _ | .bltu _ _ _ | .bgeu _ _ _ => 0b1100011#7
  | .jalr _ _ _ => 0b1100111#7
  | .jal _ _ => 0b1101111#7
  | .csrrw _ _ _ | .csrrs _ _ _ | .csrrc _ _ _ | .csrrwi _ _ _ | .csrrsi _ _ _ | .csrrci _ _ _
  | .ecall | .ebreak | .mret | .sret | .wfi => 0b1110011#7

/-- The word of `i` has the major opcode of its group. -/
def EncodedOpcode.Statement (i : Instr) : Prop :=
  opcode (encode i) = majorOpcode i

theorem EncodedOpcode.lui (rd : RegIdx) (imm : BitVec 20) : EncodedOpcode.Statement (.lui rd imm) :=
  encodeU_opcode ..

theorem EncodedOpcode.auipc (rd : RegIdx) (imm : BitVec 20) : EncodedOpcode.Statement (.auipc rd imm) :=
  encodeU_opcode ..

theorem EncodedOpcode.addi (rd rs1 : RegIdx) (imm : BitVec 12) : EncodedOpcode.Statement (.addi rd rs1 imm) :=
  encodeI_opcode ..

theorem EncodedOpcode.slti (rd rs1 : RegIdx) (imm : BitVec 12) : EncodedOpcode.Statement (.slti rd rs1 imm) :=
  encodeI_opcode ..

theorem EncodedOpcode.sltiu (rd rs1 : RegIdx) (imm : BitVec 12) : EncodedOpcode.Statement (.sltiu rd rs1 imm) :=
  encodeI_opcode ..

theorem EncodedOpcode.xori (rd rs1 : RegIdx) (imm : BitVec 12) : EncodedOpcode.Statement (.xori rd rs1 imm) :=
  encodeI_opcode ..

theorem EncodedOpcode.ori (rd rs1 : RegIdx) (imm : BitVec 12) : EncodedOpcode.Statement (.ori rd rs1 imm) :=
  encodeI_opcode ..

theorem EncodedOpcode.andi (rd rs1 : RegIdx) (imm : BitVec 12) : EncodedOpcode.Statement (.andi rd rs1 imm) :=
  encodeI_opcode ..

theorem EncodedOpcode.slli (rd rs1 : RegIdx) (shamt : BitVec 5) : EncodedOpcode.Statement (.slli rd rs1 shamt) :=
  encodeI_opcode ..

theorem EncodedOpcode.srli (rd rs1 : RegIdx) (shamt : BitVec 5) : EncodedOpcode.Statement (.srli rd rs1 shamt) :=
  encodeI_opcode ..

theorem EncodedOpcode.srai (rd rs1 : RegIdx) (shamt : BitVec 5) : EncodedOpcode.Statement (.srai rd rs1 shamt) :=
  encodeI_opcode ..

theorem EncodedOpcode.add (rd rs1 rs2 : RegIdx) : EncodedOpcode.Statement (.add rd rs1 rs2) :=
  encodeR_opcode ..

theorem EncodedOpcode.sub (rd rs1 rs2 : RegIdx) : EncodedOpcode.Statement (.sub rd rs1 rs2) :=
  encodeR_opcode ..

theorem EncodedOpcode.sll (rd rs1 rs2 : RegIdx) : EncodedOpcode.Statement (.sll rd rs1 rs2) :=
  encodeR_opcode ..

theorem EncodedOpcode.slt (rd rs1 rs2 : RegIdx) : EncodedOpcode.Statement (.slt rd rs1 rs2) :=
  encodeR_opcode ..

theorem EncodedOpcode.sltu (rd rs1 rs2 : RegIdx) : EncodedOpcode.Statement (.sltu rd rs1 rs2) :=
  encodeR_opcode ..

theorem EncodedOpcode.xor (rd rs1 rs2 : RegIdx) : EncodedOpcode.Statement (.xor rd rs1 rs2) :=
  encodeR_opcode ..

theorem EncodedOpcode.srl (rd rs1 rs2 : RegIdx) : EncodedOpcode.Statement (.srl rd rs1 rs2) :=
  encodeR_opcode ..

theorem EncodedOpcode.sra (rd rs1 rs2 : RegIdx) : EncodedOpcode.Statement (.sra rd rs1 rs2) :=
  encodeR_opcode ..

theorem EncodedOpcode.or (rd rs1 rs2 : RegIdx) : EncodedOpcode.Statement (.or rd rs1 rs2) :=
  encodeR_opcode ..

theorem EncodedOpcode.and (rd rs1 rs2 : RegIdx) : EncodedOpcode.Statement (.and rd rs1 rs2) :=
  encodeR_opcode ..

theorem EncodedOpcode.jal (rd : RegIdx) (off : BitVec 21) : EncodedOpcode.Statement (.jal rd off) :=
  encodeJ_opcode ..

theorem EncodedOpcode.jalr (rd rs1 : RegIdx) (imm : BitVec 12) : EncodedOpcode.Statement (.jalr rd rs1 imm) :=
  encodeI_opcode ..

theorem EncodedOpcode.beq (rs1 rs2 : RegIdx) (off : BitVec 13) : EncodedOpcode.Statement (.beq rs1 rs2 off) :=
  encodeB_opcode ..

theorem EncodedOpcode.bne (rs1 rs2 : RegIdx) (off : BitVec 13) : EncodedOpcode.Statement (.bne rs1 rs2 off) :=
  encodeB_opcode ..

theorem EncodedOpcode.blt (rs1 rs2 : RegIdx) (off : BitVec 13) : EncodedOpcode.Statement (.blt rs1 rs2 off) :=
  encodeB_opcode ..

theorem EncodedOpcode.bge (rs1 rs2 : RegIdx) (off : BitVec 13) : EncodedOpcode.Statement (.bge rs1 rs2 off) :=
  encodeB_opcode ..

theorem EncodedOpcode.bltu (rs1 rs2 : RegIdx) (off : BitVec 13) : EncodedOpcode.Statement (.bltu rs1 rs2 off) :=
  encodeB_opcode ..

theorem EncodedOpcode.bgeu (rs1 rs2 : RegIdx) (off : BitVec 13) : EncodedOpcode.Statement (.bgeu rs1 rs2 off) :=
  encodeB_opcode ..

theorem EncodedOpcode.lb (rd rs1 : RegIdx) (imm : BitVec 12) : EncodedOpcode.Statement (.lb rd rs1 imm) :=
  encodeI_opcode ..

theorem EncodedOpcode.lh (rd rs1 : RegIdx) (imm : BitVec 12) : EncodedOpcode.Statement (.lh rd rs1 imm) :=
  encodeI_opcode ..

theorem EncodedOpcode.lw (rd rs1 : RegIdx) (imm : BitVec 12) : EncodedOpcode.Statement (.lw rd rs1 imm) :=
  encodeI_opcode ..

theorem EncodedOpcode.lbu (rd rs1 : RegIdx) (imm : BitVec 12) : EncodedOpcode.Statement (.lbu rd rs1 imm) :=
  encodeI_opcode ..

theorem EncodedOpcode.lhu (rd rs1 : RegIdx) (imm : BitVec 12) : EncodedOpcode.Statement (.lhu rd rs1 imm) :=
  encodeI_opcode ..

theorem EncodedOpcode.sb (rs1 rs2 : RegIdx) (imm : BitVec 12) : EncodedOpcode.Statement (.sb rs1 rs2 imm) :=
  encodeS_opcode ..

theorem EncodedOpcode.sh (rs1 rs2 : RegIdx) (imm : BitVec 12) : EncodedOpcode.Statement (.sh rs1 rs2 imm) :=
  encodeS_opcode ..

theorem EncodedOpcode.sw (rs1 rs2 : RegIdx) (imm : BitVec 12) : EncodedOpcode.Statement (.sw rs1 rs2 imm) :=
  encodeS_opcode ..

theorem EncodedOpcode.fence : EncodedOpcode.Statement (.fence) :=
  rfl

theorem EncodedOpcode.fenceI : EncodedOpcode.Statement (.fenceI) :=
  rfl

theorem EncodedOpcode.mul (rd rs1 rs2 : RegIdx) : EncodedOpcode.Statement (.mul rd rs1 rs2) :=
  encodeR_opcode ..

theorem EncodedOpcode.mulh (rd rs1 rs2 : RegIdx) : EncodedOpcode.Statement (.mulh rd rs1 rs2) :=
  encodeR_opcode ..

theorem EncodedOpcode.mulhsu (rd rs1 rs2 : RegIdx) : EncodedOpcode.Statement (.mulhsu rd rs1 rs2) :=
  encodeR_opcode ..

theorem EncodedOpcode.mulhu (rd rs1 rs2 : RegIdx) : EncodedOpcode.Statement (.mulhu rd rs1 rs2) :=
  encodeR_opcode ..

theorem EncodedOpcode.div (rd rs1 rs2 : RegIdx) : EncodedOpcode.Statement (.div rd rs1 rs2) :=
  encodeR_opcode ..

theorem EncodedOpcode.divu (rd rs1 rs2 : RegIdx) : EncodedOpcode.Statement (.divu rd rs1 rs2) :=
  encodeR_opcode ..

theorem EncodedOpcode.rem (rd rs1 rs2 : RegIdx) : EncodedOpcode.Statement (.rem rd rs1 rs2) :=
  encodeR_opcode ..

theorem EncodedOpcode.remu (rd rs1 rs2 : RegIdx) : EncodedOpcode.Statement (.remu rd rs1 rs2) :=
  encodeR_opcode ..

theorem EncodedOpcode.lrW (rd rs1 : RegIdx) : EncodedOpcode.Statement (.lrW rd rs1) :=
  encodeAmo_opcode ..

theorem EncodedOpcode.scW (rd rs1 rs2 : RegIdx) : EncodedOpcode.Statement (.scW rd rs1 rs2) :=
  encodeAmo_opcode ..

theorem EncodedOpcode.amoswapW (rd rs1 rs2 : RegIdx) : EncodedOpcode.Statement (.amoswapW rd rs1 rs2) :=
  encodeAmo_opcode ..

theorem EncodedOpcode.amoaddW (rd rs1 rs2 : RegIdx) : EncodedOpcode.Statement (.amoaddW rd rs1 rs2) :=
  encodeAmo_opcode ..

theorem EncodedOpcode.amoxorW (rd rs1 rs2 : RegIdx) : EncodedOpcode.Statement (.amoxorW rd rs1 rs2) :=
  encodeAmo_opcode ..

theorem EncodedOpcode.amoandW (rd rs1 rs2 : RegIdx) : EncodedOpcode.Statement (.amoandW rd rs1 rs2) :=
  encodeAmo_opcode ..

theorem EncodedOpcode.amoorW (rd rs1 rs2 : RegIdx) : EncodedOpcode.Statement (.amoorW rd rs1 rs2) :=
  encodeAmo_opcode ..

theorem EncodedOpcode.amominW (rd rs1 rs2 : RegIdx) : EncodedOpcode.Statement (.amominW rd rs1 rs2) :=
  encodeAmo_opcode ..

theorem EncodedOpcode.amomaxW (rd rs1 rs2 : RegIdx) : EncodedOpcode.Statement (.amomaxW rd rs1 rs2) :=
  encodeAmo_opcode ..

theorem EncodedOpcode.amominuW (rd rs1 rs2 : RegIdx) : EncodedOpcode.Statement (.amominuW rd rs1 rs2) :=
  encodeAmo_opcode ..

theorem EncodedOpcode.amomaxuW (rd rs1 rs2 : RegIdx) : EncodedOpcode.Statement (.amomaxuW rd rs1 rs2) :=
  encodeAmo_opcode ..

theorem EncodedOpcode.csrrw (rd : RegIdx) (csr : CsrAddr) (rs1 : RegIdx) : EncodedOpcode.Statement (.csrrw rd csr rs1) :=
  encodeI_opcode ..

theorem EncodedOpcode.csrrs (rd : RegIdx) (csr : CsrAddr) (rs1 : RegIdx) : EncodedOpcode.Statement (.csrrs rd csr rs1) :=
  encodeI_opcode ..

theorem EncodedOpcode.csrrc (rd : RegIdx) (csr : CsrAddr) (rs1 : RegIdx) : EncodedOpcode.Statement (.csrrc rd csr rs1) :=
  encodeI_opcode ..

theorem EncodedOpcode.csrrwi (rd : RegIdx) (csr : CsrAddr) (zimm : BitVec 5) : EncodedOpcode.Statement (.csrrwi rd csr zimm) :=
  encodeI_opcode ..

theorem EncodedOpcode.csrrsi (rd : RegIdx) (csr : CsrAddr) (zimm : BitVec 5) : EncodedOpcode.Statement (.csrrsi rd csr zimm) :=
  encodeI_opcode ..

theorem EncodedOpcode.csrrci (rd : RegIdx) (csr : CsrAddr) (zimm : BitVec 5) : EncodedOpcode.Statement (.csrrci rd csr zimm) :=
  encodeI_opcode ..

theorem EncodedOpcode.ecall : EncodedOpcode.Statement (.ecall) :=
  rfl

theorem EncodedOpcode.ebreak : EncodedOpcode.Statement (.ebreak) :=
  rfl

theorem EncodedOpcode.mret : EncodedOpcode.Statement (.mret) :=
  rfl

theorem EncodedOpcode.sret : EncodedOpcode.Statement (.sret) :=
  rfl

theorem EncodedOpcode.wfi : EncodedOpcode.Statement (.wfi) :=
  rfl

end Sys2Proof.Laws
end

