-- ==== Sys2Proof/Laws/Plic.lean ====
section
/-!
SUPPORT. Sys2Proof/Laws/Plic.lean: the register map of the PLIC (60_exceptions.md R446), one lemma per row and one for
the offsets between the rows, under the bounds that keep the rows apart (log 12).
-/

namespace Sys2Proof.Machine

variable {n ctx : Nat}

/-- A byte of a priority register. -/
theorem plicReg_priority {s k : Nat} (hs : s < n) (hk : k < 4) : plicReg n ctx (4 * s + k) = .priority s k := by
  unfold plicReg
  rw [if_pos (by omega)]
  congr 1 <;> omega

/-- A byte of a pending word. -/
theorem plicReg_pending {k : Nat} (hn : n ≤ 1024) (hk : 8 * k < n) : plicReg n ctx (0x1000 + k) = .pending (8 * k) := by
  unfold plicReg
  rw [if_neg (by omega), if_pos (by omega), Nat.add_sub_cancel_left]

/-- A byte of an enable word. -/
theorem plicReg_enable {k : Nat} (hn : n ≤ 1024) (hk : 8 * k < n) :
    plicReg n ctx (0x2000 + 0x80 * ctx + k) = .enable (8 * k) := by
  unfold plicReg plicEnableBase
  rw [if_neg (by omega), if_neg (by omega), if_pos (by omega), Nat.add_sub_cancel_left]

/-- A byte of the threshold. -/
theorem plicReg_threshold {k : Nat} (hn : n ≤ 1024) (hc : ctx < 15872) (hk : k < 4) :
    plicReg n ctx (0x200000 + 0x1000 * ctx + k) = .threshold k := by
  unfold plicReg plicEnableBase plicThresholdBase
  rw [if_neg (by omega), if_neg (by omega), if_neg (by omega), if_pos (by omega), Nat.add_sub_cancel_left]

/-- A byte of claim/complete. -/
theorem plicReg_claim {k : Nat} (hn : n ≤ 1024) (hc : ctx < 15872) (hk : k < 4) :
    plicReg n ctx (0x200004 + 0x1000 * ctx + k) = .claim k := by
  unfold plicReg plicEnableBase plicThresholdBase plicClaimBase
  rw [if_neg (by omega), if_neg (by omega), if_neg (by omega), if_neg (by omega), if_pos (by omega), Nat.add_sub_cancel_left]

/-- An offset outside every row names no register (R112). -/
theorem plicReg_none {o : Nat} (hp : 4 * n ≤ o) (hw : o < 0x1000 ∨ 0x1000 + (n + 7) / 8 ≤ o)
    (he : o < 0x2000 + 0x80 * ctx ∨ 0x2000 + 0x80 * ctx + (n + 7) / 8 ≤ o)
    (ht : o < 0x200000 + 0x1000 * ctx ∨ 0x200000 + 0x1000 * ctx + 8 ≤ o) : plicReg n ctx o = .none := by
  unfold plicReg plicEnableBase plicThresholdBase plicClaimBase
  rw [if_neg (by omega), if_neg (by omega), if_neg (by omega), if_neg (by omega), if_neg (by omega)]

end Sys2Proof.Machine
end

