-- ==== Sys2Proof/Tests/Slice0.lean ====
section
/-!
SUPPORT. Sys2Proof/Tests/Slice0.lean: the model's own tests: ill-formed terms that WellFormed refuses, one word of each
instruction that decodes to it, single steps with the values of 95_test_vectors.md, and for every obligation with
hypotheses a concrete state and operands that meet them.

The words and the expected values are those of spec/95_test_vectors.md (the row's number stands in the name or the
docstring), never the model's own answers.
-/

namespace Sys2Proof.Tests

open Sys2Proof.Machine

/-! ## WellFormed -/

theorem test_wellFormed_refuses_odd_branch : (Instr.beq 5 6 1#13).wellFormed = false := by decide
theorem test_wellFormed_refuses_odd_bne : (Instr.bne 5 6 3#13).wellFormed = false := by decide
theorem test_wellFormed_refuses_odd_blt : (Instr.blt 5 6 (-1#13)).wellFormed = false := by decide
theorem test_wellFormed_refuses_odd_bge : (Instr.bge 5 6 5#13).wellFormed = false := by decide
theorem test_wellFormed_refuses_odd_bltu : (Instr.bltu 5 6 7#13).wellFormed = false := by decide
theorem test_wellFormed_refuses_odd_bgeu : (Instr.bgeu 5 6 4095#13).wellFormed = false := by decide
theorem test_wellFormed_refuses_odd_jal : (Instr.jal 1 9#21).wellFormed = false := by decide

/-! ## Decoding: one word of each instruction, written out in 95_test_vectors.md -/

/-- 95_test_vectors.md V1: lui x5, 0xFFFFF. -/
theorem test_decode_lui : decodeWord 0xFFFFF2B7#32 = .ok (.lui 5 1048575#20) := by decide

/-- 95_test_vectors.md V2: auipc x5, 0x1. -/
theorem test_decode_auipc : decodeWord 0x00001297#32 = .ok (.auipc 5 1#20) := by decide

/-- 95_test_vectors.md S2: addi x10, x0, 104. -/
theorem test_decode_addi : decodeWord 0x06800513#32 = .ok (.addi 10 0 104#12) := by decide

/-- 95_test_vectors.md V6: slti x5, x6, -1. -/
theorem test_decode_slti : decodeWord 0xFFF32293#32 = .ok (.slti 5 6 (-1#12)) := by decide

/-- 95_test_vectors.md V9: sltiu x5, x6, -1. -/
theorem test_decode_sltiu : decodeWord 0xFFF33293#32 = .ok (.sltiu 5 6 (-1#12)) := by decide

/-- 95_test_vectors.md V10: xori x5, x6, -1. -/
theorem test_decode_xori : decodeWord 0xFFF34293#32 = .ok (.xori 5 6 (-1#12)) := by decide

/-- 95_test_vectors.md V11: ori x5, x6, 0x0F0. -/
theorem test_decode_ori : decodeWord 0x0F036293#32 = .ok (.ori 5 6 0x0F0#12) := by decide

/-- 95_test_vectors.md V12: andi x5, x6, -16. -/
theorem test_decode_andi : decodeWord 0xFF037293#32 = .ok (.andi 5 6 (-16#12)) := by decide

/-- 95_test_vectors.md V13: slli x5, x6, 31. -/
theorem test_decode_slli : decodeWord 0x01F31293#32 = .ok (.slli 5 6 31#5) := by decide

/-- 95_test_vectors.md V14: srli x5, x6, 4. -/
theorem test_decode_srli : decodeWord 0x00435293#32 = .ok (.srli 5 6 4#5) := by decide

/-- 95_test_vectors.md V15: srai x5, x6, 31. -/
theorem test_decode_srai : decodeWord 0x41F35293#32 = .ok (.srai 5 6 31#5) := by decide

/-- 95_test_vectors.md S1: add x7, x8, x7. -/
theorem test_decode_add : decodeWord 0x007403B3#32 = .ok (.add 7 8 7) := by decide

/-- 95_test_vectors.md V19: sub x5, x6, x7. -/
theorem test_decode_sub : decodeWord 0x407302B3#32 = .ok (.sub 5 6 7) := by decide

/-- 95_test_vectors.md V20: sll x5, x6, x7. -/
theorem test_decode_sll : decodeWord 0x007312B3#32 = .ok (.sll 5 6 7) := by decide

/-- 95_test_vectors.md V21: slt x5, x6, x7. -/
theorem test_decode_slt : decodeWord 0x007322B3#32 = .ok (.slt 5 6 7) := by decide

/-- 95_test_vectors.md V22: sltu x5, x6, x7. -/
theorem test_decode_sltu : decodeWord 0x007332B3#32 = .ok (.sltu 5 6 7) := by decide

/-- 95_test_vectors.md V24: xor x5, x6, x7. -/
theorem test_decode_xor : decodeWord 0x007342B3#32 = .ok (.xor 5 6 7) := by decide

/-- 95_test_vectors.md V25: srl x5, x6, x7. -/
theorem test_decode_srl : decodeWord 0x007352B3#32 = .ok (.srl 5 6 7) := by decide

/-- 95_test_vectors.md V26: sra x5, x6, x7. -/
theorem test_decode_sra : decodeWord 0x407352B3#32 = .ok (.sra 5 6 7) := by decide

/-- 95_test_vectors.md V27: or x5, x6, x7. -/
theorem test_decode_or : decodeWord 0x007362B3#32 = .ok (.or 5 6 7) := by decide

/-- 95_test_vectors.md V28: and x5, x6, x7. -/
theorem test_decode_and : decodeWord 0x007372B3#32 = .ok (.and 5 6 7) := by decide

/-- 95_test_vectors.md S3: jal x1, 8. -/
theorem test_decode_jal : decodeWord 0x008000EF#32 = .ok (.jal 1 8#21) := by decide

/-- 95_test_vectors.md V36: jalr x1, 3(x5). -/
theorem test_decode_jalr : decodeWord 0x003280E7#32 = .ok (.jalr 1 5 3#12) := by decide

/-- 95_test_vectors.md V39: beq x6, x7, 16. -/
theorem test_decode_beq : decodeWord 0x00730863#32 = .ok (.beq 6 7 16#13) := by decide

/-- 95_test_vectors.md V41: bne x6, x7, -8. -/
theorem test_decode_bne : decodeWord 0xFE731CE3#32 = .ok (.bne 6 7 (-8#13)) := by decide

/-- 95_test_vectors.md V42: blt x6, x7, 12. -/
theorem test_decode_blt : decodeWord 0x00734663#32 = .ok (.blt 6 7 12#13) := by decide

/-- 95_test_vectors.md V43: bge x6, x7, 12. -/
theorem test_decode_bge : decodeWord 0x00735663#32 = .ok (.bge 6 7 12#13) := by decide

/-- 95_test_vectors.md V45: bltu x6, x7, 12. -/
theorem test_decode_bltu : decodeWord 0x00736663#32 = .ok (.bltu 6 7 12#13) := by decide

/-- 95_test_vectors.md V46: bgeu x6, x7, 12. -/
theorem test_decode_bgeu : decodeWord 0x00737663#32 = .ok (.bgeu 6 7 12#13) := by decide

/-- 95_test_vectors.md V50: lb x5, 0(x6). -/
theorem test_decode_lb : decodeWord 0x00030283#32 = .ok (.lb 5 6 0#12) := by decide

/-- 95_test_vectors.md V51: lh x5, 2(x6). -/
theorem test_decode_lh : decodeWord 0x00231283#32 = .ok (.lh 5 6 2#12) := by decide

/-- 95_test_vectors.md V52: lw x5, 0(x6). -/
theorem test_decode_lw : decodeWord 0x00032283#32 = .ok (.lw 5 6 0#12) := by decide

/-- 95_test_vectors.md V53: lbu x5, -1(x6). -/
theorem test_decode_lbu : decodeWord 0xFFF34283#32 = .ok (.lbu 5 6 (-1#12)) := by decide

/-- 95_test_vectors.md V54: lhu x5, 0(x6). -/
theorem test_decode_lhu : decodeWord 0x00035283#32 = .ok (.lhu 5 6 0#12) := by decide

/-- 95_test_vectors.md V60: sb x7, 3(x6). -/
theorem test_decode_sb : decodeWord 0x007301A3#32 = .ok (.sb 6 7 3#12) := by decide

/-- 95_test_vectors.md V61: sh x7, 1(x6). -/
theorem test_decode_sh : decodeWord 0x007310A3#32 = .ok (.sh 6 7 1#12) := by decide

/-- 95_test_vectors.md V62: sw x7, -4(x6). -/
theorem test_decode_sw : decodeWord 0xFE732E23#32 = .ok (.sw 6 7 (-4#12)) := by decide

/-- 95_test_vectors.md V72: fence. -/
theorem test_decode_fence : decodeWord 0x0FF0000F#32 = .ok .fence := by decide

/-- 95_test_vectors.md V73: fence.i. -/
theorem test_decode_fenceI : decodeWord 0x0000100F#32 = .ok .fenceI := by decide

/-- 95_test_vectors.md V77: mul x5, x6, x7. -/
theorem test_decode_mul : decodeWord 0x027302B3#32 = .ok (.mul 5 6 7) := by decide

/-- 95_test_vectors.md V79: mulh x5, x6, x7. -/
theorem test_decode_mulh : decodeWord 0x027312B3#32 = .ok (.mulh 5 6 7) := by decide

/-- 95_test_vectors.md V81: mulhsu x5, x6, x7. -/
theorem test_decode_mulhsu : decodeWord 0x027322B3#32 = .ok (.mulhsu 5 6 7) := by decide

/-- 95_test_vectors.md V82: mulhu x5, x6, x7. -/
theorem test_decode_mulhu : decodeWord 0x027332B3#32 = .ok (.mulhu 5 6 7) := by decide

/-- 95_test_vectors.md V83: div x5, x6, x7. -/
theorem test_decode_div : decodeWord 0x027342B3#32 = .ok (.div 5 6 7) := by decide

/-- 95_test_vectors.md V87: divu x5, x6, x7. -/
theorem test_decode_divu : decodeWord 0x027352B3#32 = .ok (.divu 5 6 7) := by decide

/-- 95_test_vectors.md V89: rem x5, x6, x7. -/
theorem test_decode_rem : decodeWord 0x027362B3#32 = .ok (.rem 5 6 7) := by decide

/-- 95_test_vectors.md V93: remu x5, x6, x7. -/
theorem test_decode_remu : decodeWord 0x027372B3#32 = .ok (.remu 5 6 7) := by decide

/-- 95_test_vectors.md V96: lr.w x5, (x6). -/
theorem test_decode_lrW : decodeWord 0x100322AF#32 = .ok (.lrW 5 6) := by decide

/-- 95_test_vectors.md V99: sc.w x5, x7, (x6). -/
theorem test_decode_scW : decodeWord 0x187322AF#32 = .ok (.scW 5 6 7) := by decide

/-- 95_test_vectors.md V103: amoswap.w x5, x7, (x6). -/
theorem test_decode_amoswapW : decodeWord 0x087322AF#32 = .ok (.amoswapW 5 6 7) := by decide

/-- 95_test_vectors.md V105: amoadd.w x5, x7, (x6). -/
theorem test_decode_amoaddW : decodeWord 0x007322AF#32 = .ok (.amoaddW 5 6 7) := by decide

/-- 95_test_vectors.md V107: amoxor.w x5, x7, (x6). -/
theorem test_decode_amoxorW : decodeWord 0x207322AF#32 = .ok (.amoxorW 5 6 7) := by decide

/-- 95_test_vectors.md V108: amoand.w x5, x7, (x6). -/
theorem test_decode_amoandW : decodeWord 0x607322AF#32 = .ok (.amoandW 5 6 7) := by decide

/-- 95_test_vectors.md V109: amoor.w x5, x7, (x6). -/
theorem test_decode_amoorW : decodeWord 0x407322AF#32 = .ok (.amoorW 5 6 7) := by decide

/-- 95_test_vectors.md V110: amomin.w x5, x7, (x6). -/
theorem test_decode_amominW : decodeWord 0x807322AF#32 = .ok (.amominW 5 6 7) := by decide

/-- 95_test_vectors.md V111: amomax.w x5, x7, (x6). -/
theorem test_decode_amomaxW : decodeWord 0xA07322AF#32 = .ok (.amomaxW 5 6 7) := by decide

/-- 95_test_vectors.md V112: amominu.w x5, x7, (x6). -/
theorem test_decode_amominuW : decodeWord 0xC07322AF#32 = .ok (.amominuW 5 6 7) := by decide

/-- 95_test_vectors.md V113: amomaxu.w x5, x7, (x6). -/
theorem test_decode_amomaxuW : decodeWord 0xE07322AF#32 = .ok (.amomaxuW 5 6 7) := by decide

/-- 95_test_vectors.md S5: csrrw x0, mstatus, x6. -/
theorem test_decode_csrrw : decodeWord 0x30031073#32 = .ok (.csrrw 0 0x300#12 6) := by decide

/-- 95_test_vectors.md V119: csrrs x5, mscratch, x6. -/
theorem test_decode_csrrs : decodeWord 0x340322F3#32 = .ok (.csrrs 5 0x340#12 6) := by decide

/-- 95_test_vectors.md V120: csrrc x5, mscratch, x6. -/
theorem test_decode_csrrc : decodeWord 0x340332F3#32 = .ok (.csrrc 5 0x340#12 6) := by decide

/-- 95_test_vectors.md V121: csrrwi x5, mscratch, 17. -/
theorem test_decode_csrrwi : decodeWord 0x3408D2F3#32 = .ok (.csrrwi 5 0x340#12 17#5) := by decide

/-- 95_test_vectors.md V122: csrrsi x5, mscratch, 3. -/
theorem test_decode_csrrsi : decodeWord 0x3401E2F3#32 = .ok (.csrrsi 5 0x340#12 3#5) := by decide

/-- 95_test_vectors.md V123: csrrci x5, mscratch, 1. -/
theorem test_decode_csrrci : decodeWord 0x3400F2F3#32 = .ok (.csrrci 5 0x340#12 1#5) := by decide

/-- 95_test_vectors.md S4: ecall. -/
theorem test_decode_ecall : decodeWord 0x00000073#32 = .ok .ecall := by decide

/-- 95_test_vectors.md V155: ebreak. -/
theorem test_decode_ebreak : decodeWord 0x00100073#32 = .ok .ebreak := by decide

/-- 95_test_vectors.md V158: mret. -/
theorem test_decode_mret : decodeWord 0x30200073#32 = .ok .mret := by decide

/-- 95_test_vectors.md V163: sret. -/
theorem test_decode_sret : decodeWord 0x10200073#32 = .ok .sret := by decide

/-- 95_test_vectors.md V167: wfi. -/
theorem test_decode_wfi : decodeWord 0x10500073#32 = .ok .wfi := by decide

/-- R195: words without a mapping (95_test_vectors.md V215, V216, V30, V172). -/
theorem test_decode_refuses :
    decodeWord 0x00000000#32 = .error .zeroWord ∧ decodeWord 0xFFFFFFFF#32 = .error (.noMapping 0xFFFFFFFF#32) ∧
    decodeWord 0x02131293#32 = .error (.noMapping 0x02131293#32) ∧
    decodeWord 0x12000073#32 = .error (.noMapping 0x12000073#32) := by decide

/-- R170: three bytes hold no instruction. -/
theorem test_decode_truncated : decodeBytes [0x13#8, 0x00#8, 0x00#8] = .error .truncated := by decide

/-- 30_encoding.md R196 and 95_test_vectors.md V166: an `mret` with rs1 and rd set, by the table's numbering. -/
theorem test_decode_table_word : decodeTableWord 32 0x30228273 = some .mret := by decide

/-! ## Single steps -/

/-- The state after reset with parameters `cfg`, pc at `pc`, the listed registers and the instruction word `w` at pc
(the start state of 95_test_vectors.md). -/
def start (cfg : Config) (pc : Word) (regs : List (RegIdx × Word)) (w : Nat) : State :=
  regs.foldl (fun s e => s.writeReg e.1 e.2) (({ State.resetWith cfg with pc := pc } : State).withFetchWord 32 w)

/-- `s` with the listed bytes in RAM from address `a` up. -/
def lay : Word → List Byte → State → State
  | _, [], s => s
  | a, b :: bs, s => lay (a + 1#32) bs { s with mem := s.mem.write a b }

/-- The step answers a next state with property `p`. -/
def stepGives (s : State) (p : State → Bool) : Bool :=
  match step s with
  | .next t => p t
  | _ => false

/-- Executing `i` answers a next state with property `p`. -/
def execGives (i : Instr) (s : State) (p : State → Bool) : Bool :=
  match exec i s with
  | .next t => p t
  | _ => false

theorem stepGives_next {s : State} {p : State → Bool} (h : stepGives s p = true) :
    ∃ t, step s = .next t ∧ p t = true := by
  unfold stepGives at h
  split at h
  · exact ⟨_, ‹_›, h⟩
  · cases h

theorem execGives_next {i : Instr} {s : State} {p : State → Bool} (h : execGives i s p = true) :
    ∃ t, exec i s = .next t ∧ p t = true := by
  unfold execGives at h
  split at h
  · exact ⟨_, ‹_›, h⟩
  · cases h

/-- 95_test_vectors.md V1. -/
theorem test_lui_V1 :
    stepGives
      (start Config.default 0x80000000#32 [] 0xFFFFF2B7)
      (fun t => t.pc == 0x80000004#32 && t.readReg 5 == 0xFFFFF000#32) = true := by decide

/-- 95_test_vectors.md V3. -/
theorem test_auipc_V3 :
    stepGives
      (start Config.default 0x80000000#32 [] 0x80000297)
      (fun t => t.pc == 0x80000004#32 && t.readReg 5 == 0x0#32) = true := by decide

/-- 95_test_vectors.md V4. -/
theorem test_addi_V4 :
    stepGives
      (start Config.default 0x80000000#32 [(6, 0x0#32)] 0xFFF30293)
      (fun t => t.pc == 0x80000004#32 && t.readReg 5 == 0xFFFFFFFF#32) = true := by decide

/-- 95_test_vectors.md V177. -/
theorem test_addi_V177 :
    stepGives
      ({ start Config.default 0x80000000#32 [] 0x00128293 with
        clint.mtimecmp := 0x0#64, clint.msip := true, csr.mie := 0x88#32, csr.mstatus := 0x8#32,
        csr.mtvec := 0x80000400#32 })
      (fun t => t.pc == 0x80000400#32 && t.readReg 5 == 0x1#32 && t.csr.mstatus == 0x1880#32 &&
        t.csr.mepc == 0x80000004#32 && t.csr.mcause == 0x80000003#32 && t.csr.mip == 0x80#32) = true := by decide

/-- 95_test_vectors.md V6. -/
theorem test_slti_V6 :
    stepGives
      (start Config.default 0x80000000#32 [(6, 0xFFFFFFFE#32)] 0xFFF32293)
      (fun t => t.pc == 0x80000004#32 && t.readReg 5 == 0x1#32) = true := by decide

/-- 95_test_vectors.md V9. -/
theorem test_sltiu_V9 :
    stepGives
      (start Config.default 0x80000000#32 [(6, 0xFFFFFFFE#32)] 0xFFF33293)
      (fun t => t.pc == 0x80000004#32 && t.readReg 5 == 0x1#32) = true := by decide

/-- 95_test_vectors.md V10. -/
theorem test_xori_V10 :
    stepGives
      (start Config.default 0x80000000#32 [(6, 0xF0F0F0F#32)] 0xFFF34293)
      (fun t => t.pc == 0x80000004#32 && t.readReg 5 == 0xF0F0F0F0#32) = true := by decide

/-- 95_test_vectors.md V11. -/
theorem test_ori_V11 :
    stepGives
      (start Config.default 0x80000000#32 [(6, 0x80000001#32)] 0x0F036293)
      (fun t => t.pc == 0x80000004#32 && t.readReg 5 == 0x800000F1#32) = true := by decide

/-- 95_test_vectors.md V12. -/
theorem test_andi_V12 :
    stepGives
      (start Config.default 0x80000000#32 [(6, 0x1234567F#32)] 0xFF037293)
      (fun t => t.pc == 0x80000004#32 && t.readReg 5 == 0x12345670#32) = true := by decide

/-- 95_test_vectors.md V13. -/
theorem test_slli_V13 :
    stepGives
      (start Config.default 0x80000000#32 [(6, 0x3#32)] 0x01F31293)
      (fun t => t.pc == 0x80000004#32 && t.readReg 5 == 0x80000000#32) = true := by decide

/-- 95_test_vectors.md V14. -/
theorem test_srli_V14 :
    stepGives
      (start Config.default 0x80000000#32 [(6, 0x80000000#32)] 0x00435293)
      (fun t => t.pc == 0x80000004#32 && t.readReg 5 == 0x8000000#32) = true := by decide

/-- 95_test_vectors.md V15. -/
theorem test_srai_V15 :
    stepGives
      (start Config.default 0x80000000#32 [(6, 0x80000000#32)] 0x41F35293)
      (fun t => t.pc == 0x80000004#32 && t.readReg 5 == 0xFFFFFFFF#32) = true := by decide

/-- 95_test_vectors.md V17. -/
theorem test_add_V17 :
    stepGives
      (start Config.default 0x80000000#32 [(6, 0xFFFFFFFF#32), (7, 0x1#32)] 0x007302B3)
      (fun t => t.pc == 0x80000004#32 && t.readReg 5 == 0x0#32) = true := by decide

/-- 95_test_vectors.md V29. -/
theorem test_add_V29 :
    stepGives
      (start Config.default 0x80000000#32 [(6, 0x40000000#32)] 0x00630333)
      (fun t => t.pc == 0x80000004#32 && t.readReg 6 == 0x80000000#32) = true := by decide

/-- 95_test_vectors.md V19. -/
theorem test_sub_V19 :
    stepGives
      (start Config.default 0x80000000#32 [(6, 0x80000000#32), (7, 0x1#32)] 0x407302B3)
      (fun t => t.pc == 0x80000004#32 && t.readReg 5 == 0x7FFFFFFF#32) = true := by decide

/-- 95_test_vectors.md V20. -/
theorem test_sll_V20 :
    stepGives
      (start Config.default 0x80000000#32 [(6, 0x1#32), (7, 0x23#32)] 0x007312B3)
      (fun t => t.pc == 0x80000004#32 && t.readReg 5 == 0x8#32) = true := by decide

/-- 95_test_vectors.md V21. -/
theorem test_slt_V21 :
    stepGives
      (start Config.default 0x80000000#32 [(6, 0xFFFFFFFF#32), (7, 0x1#32)] 0x007322B3)
      (fun t => t.pc == 0x80000004#32 && t.readReg 5 == 0x1#32) = true := by decide

/-- 95_test_vectors.md V22. -/
theorem test_sltu_V22 :
    stepGives
      (start Config.default 0x80000000#32 [(6, 0xFFFFFFFF#32), (7, 0x1#32)] 0x007332B3)
      (fun t => t.pc == 0x80000004#32 && t.readReg 5 == 0x0#32) = true := by decide

/-- 95_test_vectors.md V24. -/
theorem test_xor_V24 :
    stepGives
      (start Config.default 0x80000000#32 [(6, 0xFF00FF00#32), (7, 0xFF00FF0#32)] 0x007342B3)
      (fun t => t.pc == 0x80000004#32 && t.readReg 5 == 0xF0F0F0F0#32) = true := by decide

/-- 95_test_vectors.md V25. -/
theorem test_srl_V25 :
    stepGives
      (start Config.default 0x80000000#32 [(6, 0x80000000#32), (7, 0x20#32)] 0x007352B3)
      (fun t => t.pc == 0x80000004#32 && t.readReg 5 == 0x80000000#32) = true := by decide

/-- 95_test_vectors.md V26. -/
theorem test_sra_V26 :
    stepGives
      (start Config.default 0x80000000#32 [(6, 0x80000000#32), (7, 0x24#32)] 0x407352B3)
      (fun t => t.pc == 0x80000004#32 && t.readReg 5 == 0xF8000000#32) = true := by decide

/-- 95_test_vectors.md V27. -/
theorem test_or_V27 :
    stepGives
      (start Config.default 0x80000000#32 [(6, 0xF0#32), (7, 0xF#32)] 0x007362B3)
      (fun t => t.pc == 0x80000004#32 && t.readReg 5 == 0xFF#32) = true := by decide

/-- 95_test_vectors.md V28. -/
theorem test_and_V28 :
    stepGives
      (start Config.default 0x80000000#32 [(6, 0xF0F0#32), (7, 0xFF00#32)] 0x007372B3)
      (fun t => t.pc == 0x80000004#32 && t.readReg 5 == 0xF000#32) = true := by decide

/-- 95_test_vectors.md V33. -/
theorem test_jal_V33 :
    stepGives
      (start Config.default 0x1000#32 [] 0x008000EF)
      (fun t => t.pc == 0x1008#32 && t.readReg 1 == 0x1004#32) = true := by decide

/-- 95_test_vectors.md V35. -/
theorem test_jal_V35 :
    stepGives
      (start Config.default 0x0#32 [] 0xFFDFF0EF)
      (fun t => t.pc == 0xFFFFFFFC#32 && t.readReg 1 == 0x4#32) = true := by decide

/-- 95_test_vectors.md V36. -/
theorem test_jalr_V36 :
    stepGives
      (start Config.default 0x80000000#32 [(5, 0x80000100#32)] 0x003280E7)
      (fun t => t.pc == 0x80000103#32 && t.readReg 1 == 0x80000004#32) = true := by decide

/-- 95_test_vectors.md V37. -/
theorem test_jalr_V37 :
    stepGives
      (start Config.default 0x80000000#32 [(1, 0x80000200#32)] 0x008080E7)
      (fun t => t.pc == 0x80000208#32 && t.readReg 1 == 0x80000004#32) = true := by decide

/-- 95_test_vectors.md V39. -/
theorem test_beq_V39 :
    stepGives
      (start Config.default 0x80000000#32 [(6, 0x5#32), (7, 0x5#32)] 0x00730863)
      (fun t => t.pc == 0x80000010#32) = true := by decide

/-- 95_test_vectors.md V40. -/
theorem test_beq_V40 :
    stepGives
      (start Config.default 0x80000000#32 [(6, 0x5#32), (7, 0x6#32)] 0x00730863)
      (fun t => t.pc == 0x80000004#32) = true := by decide

/-- 95_test_vectors.md V41. -/
theorem test_bne_V41 :
    stepGives
      (start Config.default 0x80000000#32 [(6, 0x5#32), (7, 0x6#32)] 0xFE731CE3)
      (fun t => t.pc == 0x7FFFFFF8#32) = true := by decide

/-- 95_test_vectors.md V42. -/
theorem test_blt_V42 :
    stepGives
      (start Config.default 0x80000000#32 [(6, 0xFFFFFFFF#32), (7, 0x0#32)] 0x00734663)
      (fun t => t.pc == 0x8000000C#32) = true := by decide

/-- 95_test_vectors.md V43. -/
theorem test_bge_V43 :
    stepGives
      (start Config.default 0x80000000#32 [(6, 0x7#32), (7, 0x7#32)] 0x00735663)
      (fun t => t.pc == 0x8000000C#32) = true := by decide

/-- 95_test_vectors.md V44. -/
theorem test_bge_V44 :
    stepGives
      (start Config.default 0x80000000#32 [(6, 0x80000000#32), (7, 0x7FFFFFFF#32)] 0x00735663)
      (fun t => t.pc == 0x80000004#32) = true := by decide

/-- 95_test_vectors.md V45. -/
theorem test_bltu_V45 :
    stepGives
      (start Config.default 0x80000000#32 [(6, 0xFFFFFFFF#32), (7, 0x0#32)] 0x00736663)
      (fun t => t.pc == 0x80000004#32) = true := by decide

/-- 95_test_vectors.md V46. -/
theorem test_bgeu_V46 :
    stepGives
      (start Config.default 0x80000000#32 [(6, 0xFFFFFFFF#32), (7, 0x0#32)] 0x00737663)
      (fun t => t.pc == 0x8000000C#32) = true := by decide

/-- 95_test_vectors.md V50. -/
theorem test_lb_V50 :
    stepGives
      (lay 0x80001000#32 [0x80#8]
        (start Config.default 0x80000000#32 [(6, 0x80001000#32)] 0x00030283))
      (fun t => t.pc == 0x80000004#32 && t.readReg 5 == 0xFFFFFF80#32) = true := by decide

/-- 95_test_vectors.md V51. -/
theorem test_lh_V51 :
    stepGives
      (lay 0x80001000#32 [0x11#8, 0x22#8, 0x44#8, 0xF3#8]
        (start Config.default 0x80000000#32 [(6, 0x80001000#32)] 0x00231283))
      (fun t => t.pc == 0x80000004#32 && t.readReg 5 == 0xFFFFF344#32) = true := by decide

/-- 95_test_vectors.md V55. -/
theorem test_lw_V55 :
    stepGives
      (lay 0x80001000#32 [0x11#8, 0x22#8, 0x33#8, 0x44#8, 0x55#8]
        (start Config.default 0x80000000#32 [(6, 0x80001000#32)] 0x00132283))
      (fun t => t.pc == 0x80000004#32 && t.readReg 5 == 0x55443322#32) = true := by decide

/-- 95_test_vectors.md V56. -/
theorem test_lw_V56 :
    stepGives
      (lay 0xFFFFFFFE#32 [0xAA#8, 0xBB#8, 0xCC#8, 0xDD#8]
        (start Config.default 0x80000000#32 [(6, 0xFFFFFFFE#32)] 0x00032283))
      (fun t => t.pc == 0x80000004#32 && t.readReg 5 == 0xDDCCBBAA#32) = true := by decide

/-- 95_test_vectors.md V53. -/
theorem test_lbu_V53 :
    stepGives
      (lay 0x80001000#32 [0x80#8]
        (start Config.default 0x80000000#32 [(6, 0x80001001#32)] 0xFFF34283))
      (fun t => t.pc == 0x80000004#32 && t.readReg 5 == 0x80#32) = true := by decide

/-- 95_test_vectors.md V66. -/
theorem test_lbu_V66 :
    stepGives
      ({ start Config.default 0x80000000#32 [(8, 0x10000000#32)] 0x00544283 with
        uart.input := ⟨[some 0x61#8], 0⟩ })
      (fun t => t.pc == 0x80000004#32 && t.readReg 5 == 0x61#32 && t.uart.input.next == [] &&
        t.uart.rbr == 0x61#8 && t.uart.lsr == 0x61#8) = true := by decide

/-- R119, R121: a poll with no answer listed takes a free one, whatever it is; DR is set or `lsr` stays. -/
theorem test_poll_beyond_the_list :
    (Uart.reset.readByte 5).2.input = ⟨[], 1⟩ ∧
    ((Uart.reset.readByte 5).1 = 0x60#8 ∨ (Uart.reset.readByte 5).1 = 0x61#8) := by
  simp only [Uart.readByte, Uart.readLsr, Uart.poll]
  cases (Uart.reset.input.ask Config.freeInput).1 with
  | none => exact ⟨rfl, .inl rfl⟩
  | some b => exact ⟨rfl, .inr (show setBit 0x60#8 0 true = 0x61#8 by decide)⟩

/-- 95_test_vectors.md V54. -/
theorem test_lhu_V54 :
    stepGives
      (lay 0x80001000#32 [0x00#8, 0x80#8]
        (start Config.default 0x80000000#32 [(6, 0x80001000#32)] 0x00035283))
      (fun t => t.pc == 0x80000004#32 && t.readReg 5 == 0x8000#32) = true := by decide

/-- 95_test_vectors.md V60. -/
theorem test_sb_V60 :
    stepGives
      (start Config.default 0x80000000#32 [(6, 0x80001000#32), (7, 0x12345678#32)] 0x007301A3)
      (fun t => t.pc == 0x80000004#32 && t.mem.read 0x80001003#32 == 0x78#8) = true := by decide

/-- 95_test_vectors.md V64. -/
theorem test_sb_V64 :
    stepGives
      (start Config.default 0x80000000#32 [(8, 0x10000000#32), (7, 0x41#32)] 0x00740023)
      (fun t => t.pc == 0x80000004#32 && t.uart.output == [0x41#8]) = true := by decide

/-- 95_test_vectors.md V61. -/
theorem test_sh_V61 :
    stepGives
      (start Config.default 0x80000000#32 [(6, 0x80001000#32), (7, 0x12345678#32)] 0x007310A3)
      (fun t => t.pc == 0x80000004#32 && t.mem.read 0x80001001#32 == 0x78#8 &&
        t.mem.read 0x80001002#32 == 0x56#8) = true := by decide

/-- 95_test_vectors.md V62. -/
theorem test_sw_V62 :
    stepGives
      (start Config.default 0x80000000#32 [(6, 0x80001004#32), (7, 0xDEADBEEF#32)] 0xFE732E23)
      (fun t => t.pc == 0x80000004#32 && t.mem.read 0x80001000#32 == 0xEF#8 &&
        t.mem.read 0x80001001#32 == 0xBE#8 && t.mem.read 0x80001002#32 == 0xAD#8 &&
        t.mem.read 0x80001003#32 == 0xDE#8) = true := by decide

/-- 95_test_vectors.md V63. -/
theorem test_sw_V63 :
    stepGives
      (start Config.default 0x80000000#32 [(6, 0xFFFFFFFF#32), (7, 0x44332211#32)] 0x00732023)
      (fun t => t.pc == 0x80000004#32 && t.mem.read 0x0#32 == 0x22#8 &&
        t.mem.read 0x1#32 == 0x33#8 && t.mem.read 0x2#32 == 0x44#8 &&
        t.mem.read 0xFFFFFFFF#32 == 0x11#8) = true := by decide

/-- 95_test_vectors.md V72. -/
theorem test_fence_V72 :
    stepGives
      (start Config.default 0x80000000#32 [] 0x0FF0000F)
      (fun t => t.pc == 0x80000004#32) = true := by decide

/-- 95_test_vectors.md V73. -/
theorem test_fenceI_V73 :
    stepGives
      (start Config.default 0x80000000#32 [] 0x0000100F)
      (fun t => t.pc == 0x80000004#32) = true := by decide

/-- 95_test_vectors.md V77. -/
theorem test_mul_V77 :
    stepGives
      (start Config.default 0x80000000#32 [(6, 0x10000#32), (7, 0x10001#32)] 0x027302B3)
      (fun t => t.pc == 0x80000004#32 && t.readReg 5 == 0x10000#32) = true := by decide

/-- 95_test_vectors.md V79. -/
theorem test_mulh_V79 :
    stepGives
      (start Config.default 0x80000000#32 [(6, 0x80000000#32), (7, 0x80000000#32)] 0x027312B3)
      (fun t => t.pc == 0x80000004#32 && t.readReg 5 == 0x40000000#32) = true := by decide

/-- 95_test_vectors.md V81. -/
theorem test_mulhsu_V81 :
    stepGives
      (start Config.default 0x80000000#32 [(6, 0xFFFFFFFF#32), (7, 0xFFFFFFFF#32)] 0x027322B3)
      (fun t => t.pc == 0x80000004#32 && t.readReg 5 == 0xFFFFFFFF#32) = true := by decide

/-- 95_test_vectors.md V82. -/
theorem test_mulhu_V82 :
    stepGives
      (start Config.default 0x80000000#32 [(6, 0xFFFFFFFF#32), (7, 0xFFFFFFFF#32)] 0x027332B3)
      (fun t => t.pc == 0x80000004#32 && t.readReg 5 == 0xFFFFFFFE#32) = true := by decide

/-- 95_test_vectors.md V84. -/
theorem test_div_V84 :
    stepGives
      (start Config.default 0x80000000#32 [(6, 0x80000000#32), (7, 0xFFFFFFFF#32)] 0x027342B3)
      (fun t => t.pc == 0x80000004#32 && t.readReg 5 == 0x80000000#32) = true := by decide

/-- 95_test_vectors.md V85. -/
theorem test_div_V85 :
    stepGives
      (start Config.default 0x80000000#32 [(6, 0xFFFFFFF9#32), (7, 0x2#32)] 0x027342B3)
      (fun t => t.pc == 0x80000004#32 && t.readReg 5 == 0xFFFFFFFD#32) = true := by decide

/-- 95_test_vectors.md V87. -/
theorem test_divu_V87 :
    stepGives
      (start Config.default 0x80000000#32 [(6, 0x7#32), (7, 0x0#32)] 0x027352B3)
      (fun t => t.pc == 0x80000004#32 && t.readReg 5 == 0xFFFFFFFF#32) = true := by decide

/-- 95_test_vectors.md V90. -/
theorem test_rem_V90 :
    stepGives
      (start Config.default 0x80000000#32 [(6, 0x80000000#32), (7, 0xFFFFFFFF#32)] 0x027362B3)
      (fun t => t.pc == 0x80000004#32 && t.readReg 5 == 0x0#32) = true := by decide

/-- 95_test_vectors.md V92. -/
theorem test_rem_V92 :
    stepGives
      (start Config.default 0x80000000#32 [(6, 0xFFFFFFF9#32), (7, 0x2#32)] 0x027362B3)
      (fun t => t.pc == 0x80000004#32 && t.readReg 5 == 0xFFFFFFFF#32) = true := by decide

/-- 95_test_vectors.md V93. -/
theorem test_remu_V93 :
    stepGives
      (start Config.default 0x80000000#32 [(6, 0x7#32), (7, 0x0#32)] 0x027372B3)
      (fun t => t.pc == 0x80000004#32 && t.readReg 5 == 0x7#32) = true := by decide

/-- 95_test_vectors.md V97. -/
theorem test_lrW_V97 :
    stepGives
      (lay 0x80001000#32 [0x01#8, 0x00#8, 0x00#8, 0x00#8]
        (start { Config.default with scAddressCheck := true } 0x80000000#32 [(6, 0x80001000#32)] 0x100322AF))
      (fun t => t.pc == 0x80000004#32 && t.resv == true && t.resvAddr == 0x80001000#32 &&
        t.readReg 5 == 0x1#32) = true := by decide

/-- 95_test_vectors.md V99. -/
theorem test_scW_V99 :
    stepGives
      ({ start Config.default 0x80000000#32 [(6, 0x80001000#32), (7, 0x9#32)] 0x187322AF with
        resv := true })
      (fun t => t.pc == 0x80000004#32 && t.resv == false && t.mem.read 0x80001000#32 == 0x09#8 &&
        t.readReg 5 == 0x0#32) = true := by decide

/-- 95_test_vectors.md V100. -/
theorem test_scW_V100 :
    stepGives
      (start Config.default 0x80000000#32 [(6, 0x80001000#32), (7, 0x9#32)] 0x187322AF)
      (fun t => t.pc == 0x80000004#32 && t.readReg 5 == 0x1#32) = true := by decide

/-- 95_test_vectors.md V104. -/
theorem test_amoswapW_V104 :
    stepGives
      (lay 0x80001000#32 [0x05#8, 0x00#8, 0x00#8, 0x00#8]
        (start Config.default 0x80000000#32 [(6, 0x80001000#32), (7, 0xAB#32)] 0x087323AF))
      (fun t => t.pc == 0x80000004#32 && t.readReg 7 == 0x5#32 &&
        t.mem.read 0x80001000#32 == 0xAB#8) = true := by decide

/-- 95_test_vectors.md V105. -/
theorem test_amoaddW_V105 :
    stepGives
      (lay 0x80001000#32 [0x05#8, 0x00#8, 0x00#8, 0x00#8]
        (start Config.default 0x80000000#32 [(6, 0x80001000#32), (7, 0xFFFFFFFF#32)] 0x007322AF))
      (fun t => t.pc == 0x80000004#32 && t.readReg 5 == 0x5#32 &&
        t.mem.read 0x80001000#32 == 0x04#8) = true := by decide

/-- 95_test_vectors.md V107. -/
theorem test_amoxorW_V107 :
    stepGives
      (lay 0x80001000#32 [0x0F#8, 0x00#8, 0x00#8, 0x00#8]
        (start Config.default 0x80000000#32 [(6, 0x80001000#32), (7, 0xFF#32)] 0x207322AF))
      (fun t => t.pc == 0x80000004#32 && t.readReg 5 == 0xF#32 &&
        t.mem.read 0x80001000#32 == 0xF0#8) = true := by decide

/-- 95_test_vectors.md V108. -/
theorem test_amoandW_V108 :
    stepGives
      (lay 0x80001000#32 [0x3C#8, 0x00#8, 0x00#8, 0x00#8]
        (start Config.default 0x80000000#32 [(6, 0x80001000#32), (7, 0xF#32)] 0x607322AF))
      (fun t => t.pc == 0x80000004#32 && t.readReg 5 == 0x3C#32 &&
        t.mem.read 0x80001000#32 == 0x0C#8) = true := by decide

/-- 95_test_vectors.md V109. -/
theorem test_amoorW_V109 :
    stepGives
      (lay 0x80001000#32 [0x30#8, 0x00#8, 0x00#8, 0x00#8]
        (start Config.default 0x80000000#32 [(6, 0x80001000#32), (7, 0xF#32)] 0x407322AF))
      (fun t => t.pc == 0x80000004#32 && t.readReg 5 == 0x30#32 &&
        t.mem.read 0x80001000#32 == 0x3F#8) = true := by decide

/-- 95_test_vectors.md V110. -/
theorem test_amominW_V110 :
    stepGives
      (lay 0x80001000#32 [0xFF#8, 0xFF#8, 0xFF#8, 0xFF#8]
        (start Config.default 0x80000000#32 [(6, 0x80001000#32), (7, 0x1#32)] 0x807322AF))
      (fun t => t.pc == 0x80000004#32 && t.readReg 5 == 0xFFFFFFFF#32) = true := by decide

/-- 95_test_vectors.md V111. -/
theorem test_amomaxW_V111 :
    stepGives
      (lay 0x80001000#32 [0xFF#8, 0xFF#8, 0xFF#8, 0xFF#8]
        (start Config.default 0x80000000#32 [(6, 0x80001000#32), (7, 0x1#32)] 0xA07322AF))
      (fun t => t.pc == 0x80000004#32 && t.readReg 5 == 0xFFFFFFFF#32 &&
        t.mem.read 0x80001000#32 == 0x01#8 && t.mem.read 0x80001001#32 == 0x00#8 &&
        t.mem.read 0x80001002#32 == 0x00#8 && t.mem.read 0x80001003#32 == 0x00#8) = true := by decide

/-- 95_test_vectors.md V112. -/
theorem test_amominuW_V112 :
    stepGives
      (lay 0x80001000#32 [0xFF#8, 0xFF#8, 0xFF#8, 0xFF#8]
        (start Config.default 0x80000000#32 [(6, 0x80001000#32), (7, 0x1#32)] 0xC07322AF))
      (fun t => t.pc == 0x80000004#32 && t.readReg 5 == 0xFFFFFFFF#32 &&
        t.mem.read 0x80001000#32 == 0x01#8 && t.mem.read 0x80001001#32 == 0x00#8 &&
        t.mem.read 0x80001002#32 == 0x00#8 && t.mem.read 0x80001003#32 == 0x00#8) = true := by decide

/-- 95_test_vectors.md V113. -/
theorem test_amomaxuW_V113 :
    stepGives
      (lay 0x80001000#32 [0xFF#8, 0xFF#8, 0xFF#8, 0xFF#8]
        (start Config.default 0x80000000#32 [(6, 0x80001000#32), (7, 0x1#32)] 0xE07322AF))
      (fun t => t.pc == 0x80000004#32 && t.readReg 5 == 0xFFFFFFFF#32) = true := by decide

/-- 95_test_vectors.md V124. -/
theorem test_csrrw_V124 :
    stepGives
      ({ start Config.default 0x80000000#32 [(6, 0x7#32)] 0x34031373 with
        csr.mscratch := 0x9#32 })
      (fun t => t.pc == 0x80000004#32 && t.readReg 6 == 0x9#32 && t.csr.mscratch == 0x7#32) = true := by decide

/-- 95_test_vectors.md V125. -/
theorem test_csrrw_V125 :
    stepGives
      (start Config.default 0x80000000#32 [(6, 0xFFFFFFFF#32)] 0x30031073)
      (fun t => t.pc == 0x80000004#32 && t.csr.mstatus == 0x807FF9BB#32) = true := by decide

/-- 95_test_vectors.md V119. -/
theorem test_csrrs_V119 :
    stepGives
      ({ start Config.default 0x80000000#32 [(6, 0xF0#32)] 0x340322F3 with
        csr.mscratch := 0xF#32 })
      (fun t => t.pc == 0x80000004#32 && t.readReg 5 == 0xF#32 && t.csr.mscratch == 0xFF#32) = true := by decide

/-- 95_test_vectors.md V183. -/
theorem test_csrrs_V183 :
    stepGives
      ({ start Config.default 0x80000000#32 [] 0x300022F3 with
        mode := .user, csr.medeleg := 0x4#32, csr.stvec := 0x80000800#32, clint.mtimecmp := 0x0#64,
        csr.mie := 0x80#32, csr.mtvec := 0x80000400#32 })
      (fun t => t.pc == 0x80000400#32 && t.mode == .machine && t.csr.sepc == 0x80000000#32 &&
        t.csr.scause == 0x2#32 && t.csr.mstatus == 0x800#32 && t.csr.mepc == 0x80000800#32 &&
        t.csr.mcause == 0x80000007#32) = true := by decide

/-- 95_test_vectors.md V120. -/
theorem test_csrrc_V120 :
    stepGives
      ({ start Config.default 0x80000000#32 [(6, 0xF0#32)] 0x340332F3 with
        csr.mscratch := 0xFFF#32 })
      (fun t => t.pc == 0x80000004#32 && t.readReg 5 == 0xFFF#32 && t.csr.mscratch == 0xF0F#32) = true := by decide

/-- 95_test_vectors.md V121. -/
theorem test_csrrwi_V121 :
    stepGives
      ({ start Config.default 0x80000000#32 [] 0x3408D2F3 with
        csr.mscratch := 0x55#32 })
      (fun t => t.pc == 0x80000004#32 && t.readReg 5 == 0x55#32 && t.csr.mscratch == 0x11#32) = true := by decide

/-- 95_test_vectors.md V122. -/
theorem test_csrrsi_V122 :
    stepGives
      ({ start Config.default 0x80000000#32 [] 0x3401E2F3 with
        csr.mscratch := 0x10#32 })
      (fun t => t.pc == 0x80000004#32 && t.readReg 5 == 0x10#32 && t.csr.mscratch == 0x13#32) = true := by decide

/-- 95_test_vectors.md V146. -/
theorem test_csrrsi_V146 :
    stepGives
      ({ start Config.default 0x80000000#32 [] 0x340062F3 with
        mode := .supervisor, csr.mtvec := 0x80000400#32 })
      (fun t => t.pc == 0x80000400#32 && t.mode == .machine && t.csr.mstatus == 0x800#32 &&
        t.csr.mepc == 0x80000000#32 && t.csr.mcause == 0x2#32) = true := by decide

/-- 95_test_vectors.md V123. -/
theorem test_csrrci_V123 :
    stepGives
      ({ start Config.default 0x80000000#32 [] 0x3400F2F3 with
        csr.mscratch := 0x11#32 })
      (fun t => t.pc == 0x80000004#32 && t.readReg 5 == 0x11#32 && t.csr.mscratch == 0x10#32) = true := by decide

/-- 95_test_vectors.md V150. -/
theorem test_ecall_V150 :
    stepGives
      ({ start { Config.default with ecallTraps := true } 0x80000000#32 [] 0x00000073 with
        csr.mtvec := 0x80000400#32, csr.mstatus := 0x8#32 })
      (fun t => t.pc == 0x80000400#32 && t.csr.mstatus == 0x1880#32 &&
        t.csr.mepc == 0x80000000#32 && t.csr.mcause == 0xB#32) = true := by decide

/-- 95_test_vectors.md V154. -/
theorem test_ecall_V154 :
    stepGives
      (start { Config.default with selfTest := true } 0x80000000#32 [(10, 0x1#32), (3, 0x5#32)] 0x00000073)
      (fun t => t.run == .halted (.selfTestFail 0x1#32 0x5#32)) = true := by decide

/-- 95_test_vectors.md V156. -/
theorem test_ebreak_V156 :
    stepGives
      ({ start { Config.default with ebreakMode := .breakpoint } 0x80000000#32 [] 0x00100073 with
        csr.mtvec := 0x80000400#32 })
      (fun t => t.pc == 0x80000400#32 && t.csr.mstatus == 0x1800#32 &&
        t.csr.mepc == 0x80000000#32 && t.csr.mcause == 0x3#32) = true := by decide

/-- 95_test_vectors.md V157. -/
theorem test_ebreak_V157 :
    stepGives
      (start { Config.default with ebreakMode := .halt } 0x80000000#32 [] 0x00100073)
      (fun t => t.run == .halted .ebreakHalt) = true := by decide

/-- 95_test_vectors.md V158. -/
theorem test_mret_V158 :
    stepGives
      ({ start Config.default 0x80000000#32 [] 0x30200073 with
        csr.mstatus := 0x80#32, csr.mepc := 0x80000100#32 })
      (fun t => t.pc == 0x80000100#32 && t.mode == .user && t.csr.mstatus == 0x88#32) = true := by decide

/-- 95_test_vectors.md V161. -/
theorem test_mret_V161 :
    stepGives
      ({ start Config.default 0x80000000#32 [] 0x30200073 with
        mode := .supervisor, csr.mtvec := 0x80000400#32, csr.mepc := 0x80000100#32 })
      (fun t => t.pc == 0x80000400#32 && t.mode == .machine && t.csr.mstatus == 0x800#32 &&
        t.csr.mepc == 0x80000000#32 && t.csr.mcause == 0x2#32) = true := by decide

/-- 95_test_vectors.md V163. -/
theorem test_sret_V163 :
    stepGives
      ({ start Config.default 0x80000000#32 [] 0x10200073 with
        mode := .supervisor, csr.mstatus := 0x120#32, csr.sepc := 0x80000200#32 })
      (fun t => t.pc == 0x80000200#32 && t.csr.mstatus == 0x22#32) = true := by decide

/-- 95_test_vectors.md V165. -/
theorem test_sret_V165 :
    stepGives
      ({ start Config.default 0x80000000#32 [] 0x10200073 with
        mode := .user, csr.mtvec := 0x80000400#32, csr.sepc := 0x80000200#32 })
      (fun t => t.pc == 0x80000400#32 && t.mode == .machine && t.csr.mepc == 0x80000000#32 &&
        t.csr.mcause == 0x2#32) = true := by decide

/-- 95_test_vectors.md V167. -/
theorem test_wfi_V167 :
    stepGives
      (start Config.default 0x80000000#32 [] 0x10500073)
      (fun t => t.pc == 0x80000000#32) = true := by decide

/-- 95_test_vectors.md V170. -/
theorem test_wfi_V170 :
    stepGives
      ({ start Config.default 0x80000000#32 [] 0x10500073 with
        clint.mtimecmp := 0x0#64, csr.mie := 0x80#32, csr.mstatus := 0x8#32,
        csr.mtvec := 0x80000400#32 })
      (fun t => t.pc == 0x80000400#32 && t.csr.mstatus == 0x1880#32 &&
        t.csr.mepc == 0x80000004#32 && t.csr.mcause == 0x80000007#32) = true := by decide

/-! ## The interface -/

/-- What the host asks of a placed word: the decoder reads it and the first step after reset runs it. -/
theorem test_first_step_runs_placed_word :
    decodeTableWord 32 0x06800513 = some (.addi 10 0 104#12) ∧
    stepGives (State.reset.withFetchWord 32 0x06800513) (fun t => t.readReg 10 == 104#32) = true := by decide

/-- R474: a program comes to run by a load: the first step after loading it at `RAM_BASE` runs its first word. -/
theorem test_loaded_program_runs :
    (match loadProgram [0x06800513#32] State.reset with
      | some s => stepGives s (fun t => t.readReg 10 == 104#32 && t.pc == 0x80000004#32)
      | none => false) = true := by decide

/-! ## Witnesses: states and operands that meet the hypotheses of the obligations -/

/-- The two ends of a branch offset and of a jump offset are well-formed (R181, R183), and a word decodes. -/
theorem witness_DecodeEncodeRoundTrip :
    (Instr.beq 5 6 (-4096#13)).wellFormed = true ∧ (Instr.bgeu 5 6 4094#13).wellFormed = true ∧
    (Instr.jal 1 (-1048576#21)).wellFormed = true ∧ decodeWord 0x007302B3#32 = .ok (.add 5 6 7) := by decide

theorem witness_IgnoredFieldsSelectTheSameInstruction :
    decodeWord 0x30200073#32 = .ok .mret ∧
    (0x30228273#32 : Word) &&& usedBits .mret = 0x30200073#32 &&& usedBits .mret := by decide

theorem witness_DecodeMapIsTheOpcodeTable :
    (∃ row ∈ opcodeRows, (0x30228273#32 : Word) &&& row.mask = row.pattern) ∧
    (∀ row ∈ opcodeRows, (0x00000000#32 : Word) &&& row.mask ≠ row.pattern) ∧
    (∀ row ∈ opcodeRows, (0xFFFFFFFF#32 : Word) &&& row.mask ≠ row.pattern) := by decide

/-- A running engine that fetches the zero word, and one that fetches another undecodable word. -/
theorem witness_UndecodableWordHaltsTheEngine :
    State.reset.run = .running ∧
    (∀ row ∈ opcodeRows, (fetch (timeStep State.reset)).1 &&& row.mask ≠ row.pattern) ∧
    (start Config.default 0x80000000#32 [] 0xFFFFFFFF).run = .running ∧
    (∀ row ∈ opcodeRows,
      (fetch (timeStep (start Config.default 0x80000000#32 [] 0xFFFFFFFF))).1 &&& row.mask ≠ row.pattern) := by
  decide

/-- An `addi` that leaves the engine running, and an `ebreak` that halts it. -/
theorem witness_StepRunsTheDecodedInstruction :
    let s := start Config.default 0x80000000#32 [] 0x06800513
    let h := start { Config.default with ebreakMode := .halt } 0x80000000#32 [] 0x00100073
    (s.run = .running ∧ decodeWord (fetch (timeStep s)).1 = .ok (.addi 10 0 104#12) ∧
      execGives (.addi 10 0 104#12) (fetch (timeStep s)).2 (fun t => t.run == .running) = true) ∧
    (h.run = .running ∧ decodeWord (fetch (timeStep h)).1 = .ok .ebreak ∧
      execGives .ebreak (fetch (timeStep h)).2 (fun t => t.run != .running) = true) := by decide

/-- A halted engine, and a running one whose step halts for each of the four reasons. -/
theorem witness_HaltedIsFinal :
    (State.reset.halt .zeroWord).run = .halted .zeroWord ∧
    stepGives State.reset (fun t => t.run == .halted .zeroWord) = true ∧
    stepGives (start Config.default 0x80000000#32 [] 0x02131293)
      (fun t => t.run == .halted (.decodeError 0x02131293#32)) = true ∧
    stepGives (start { Config.default with selfTest := true } 0x80000000#32 [(10, 42#32)] 0x00000073)
      (fun t => t.run == .halted (.selfTestPass 42#32)) = true ∧
    stepGives (start { Config.default with selfTest := true } 0x80000000#32 [(10, 1#32), (3, 5#32)] 0x00000073)
      (fun t => t.run == .halted (.selfTestFail 1#32 5#32)) = true ∧
    stepGives (start { Config.default with ebreakMode := .halt } 0x80000000#32 [] 0x00100073)
      (fun t => t.run == .halted .ebreakHalt) = true := by decide

/-- R441: no answer listed, and an answer that makes `mtime` wrap. -/
theorem witness_TimeSourceAdvancesMtime :
    ({ State.reset with timeSource := ⟨[], 5⟩ } : State).timeSource.next = [] ∧
    ({ State.reset with timeSource := ⟨[2 ^ 64 + 3, 1], 0⟩ } : State).timeSource.next = (2 ^ 64 + 3) :: [1] ∧
    (timeStep { State.reset with timeSource := ⟨[2 ^ 64 + 3, 1], 0⟩ }).clint.mtime = 3#64 := by decide

theorem inRam_of_all {c : Config} {a : Word} {n : Nat}
    (h : ((accessBytes a n).all fun x => route c x == .ram) = true) : InRam c a n := by
  simpa [InRam, List.all_eq_true] using h

theorem notRam_of_all {c : Config} {a : Word} {n : Nat}
    (h : ((accessBytes a n).all fun x => route c x != .ram) = true) : ∀ x ∈ accessBytes a n, route c x ≠ .ram := by
  simpa [List.all_eq_true] using h

theorem inRam_noReadSideEffect {c : Config} {a : Word} {n : Nat} (h : InRam c a n) : NoReadSideEffect c a n := by
  intro x hx o
  simp [h x hx]

/-- A word load that wraps around the top of the address space, and an `lr.w`. -/
theorem witness_LoadFrame :
    let s := start Config.default 0x80000000#32 [(6, 0xFFFFFFFE#32)] 0x00032283
    (Instr.lw 5 6 0#12, 4, effectiveAddress 6 0#12 s) ∈
      ([(.lb 5 6 0#12, 1, effectiveAddress 6 0#12 s), (.lbu 5 6 0#12, 1, effectiveAddress 6 0#12 s),
        (.lh 5 6 0#12, 2, effectiveAddress 6 0#12 s), (.lhu 5 6 0#12, 2, effectiveAddress 6 0#12 s),
        (.lw 5 6 0#12, 4, effectiveAddress 6 0#12 s), (.lrW 5 6, 4, atomicAddress 6 s)]
        : List (Instr × Nat × Word)) ∧
    execGives (.lw 5 6 0#12) s (fun _ => true) = true ∧ execGives (.lrW 5 6) s (fun _ => true) = true ∧
    (Instr.lw 5 6 0#12) ≠ .lrW 5 6 ∧ NoReadSideEffect s.cfg (effectiveAddress 6 0#12 s) 4 := by
  exact ⟨by decide, by decide, by decide, by decide, inRam_noReadSideEffect (inRam_of_all (by decide))⟩

theorem ram_not_device {c : Config} {a : Word} {n : Nat} (h : InRam c a n) :
    (∀ x ∈ accessBytes a n, ∀ o, route c x ≠ .clint o) ∧ (∀ x ∈ accessBytes a n, ∀ o, route c x ≠ .plic o) ∧
    (∀ x ∈ accessBytes a n, ∀ o, route c x ≠ .uart o) ∧ (∀ x ∈ accessBytes a n, ∀ o, route c x ≠ .fb o) := by
  refine ⟨?_, ?_, ?_, ?_⟩ <;> intro x hx o <;> simp [h x hx]

/-- A store to RAM meets the four device clauses; a store to the UART meets the last one. -/
theorem witness_StoreFrame :
    let s := start Config.default 0x80000000#32 [(6, 0xFFFFFFFE#32), (7, 0x44332211#32)] 0x00732023
    let u := start Config.default 0x80000000#32 [(6, 0x100000FC#32), (7, 0x44332211#32)] 0x00732023
    execGives (.sw 6 7 0#12) s (fun _ => true) = true ∧ execGives (.sw 6 7 0#12) u (fun _ => true) = true ∧
    (∀ x ∈ accessBytes (effectiveAddress 6 0#12 s) 4, ∀ o, route s.cfg x ≠ .clint o) ∧
    (∀ x ∈ accessBytes (effectiveAddress 6 0#12 s) 4, ∀ o, route s.cfg x ≠ .plic o) ∧
    (∀ x ∈ accessBytes (effectiveAddress 6 0#12 s) 4, ∀ o, route s.cfg x ≠ .uart o) ∧
    (∀ x ∈ accessBytes (effectiveAddress 6 0#12 s) 4, ∀ o, route s.cfg x ≠ .fb o) ∧
    (∀ x ∈ accessBytes (effectiveAddress 6 0#12 u) 4, route u.cfg x ≠ .ram) := by
  have h : InRam (start Config.default 0x80000000#32 [(6, 0xFFFFFFFE#32), (7, 0x44332211#32)] 0x00732023).cfg
      (effectiveAddress 6 0#12
        (start Config.default 0x80000000#32 [(6, 0xFFFFFFFE#32), (7, 0x44332211#32)] 0x00732023)) 4 := by
    exact inRam_of_all (by decide)
  refine ⟨by decide, by decide, (ram_not_device h).1, (ram_not_device h).2.1, (ram_not_device h).2.2.1,
    (ram_not_device h).2.2.2, notRam_of_all (by decide)⟩

/-- An AMO on RAM, an `sc.w` without a reservation, and one at an address that was not reserved. -/
theorem witness_AtomicStoreFrame :
    let s := start Config.default 0x80000000#32 [(6, 0x80001000#32), (7, 3#32)] 0x007322AF
    let c : State :=
      { State.resetWith { Config.default with scAddressCheck := true } with resv := true, resvAddr := 4#32 }
    Instr.amoaddW 5 6 7 ∈
      [Instr.scW 5 6 7, .amoswapW 5 6 7, .amoaddW 5 6 7, .amoxorW 5 6 7, .amoandW 5 6 7, .amoorW 5 6 7, .amominW 5 6 7,
        .amomaxW 5 6 7, .amominuW 5 6 7, .amomaxuW 5 6 7] ∧
    execGives (.amoaddW 5 6 7) s (fun _ => true) = true ∧ execGives (.scW 5 6 7) s (fun _ => true) = true ∧
    Instr.amoaddW 5 6 7 ≠ .scW 5 6 7 ∧
    ¬ (s.resv = true ∧ (s.cfg.scAddressCheck = true → s.resvAddr = s.readReg 6)) ∧
    (execGives (.scW 5 6 7) c (fun _ => true) = true ∧
      ¬ (c.resv = true ∧ (c.cfg.scAddressCheck = true → c.resvAddr = c.readReg 6))) ∧
    (∀ x ∈ accessBytes (atomicAddress 6 s) 4, ∀ o, route s.cfg x ≠ .clint o) ∧
    (∀ x ∈ accessBytes (atomicAddress 6 s) 4, ∀ o, route s.cfg x ≠ .plic o) ∧
    (∀ x ∈ accessBytes (atomicAddress 6 s) 4, ∀ o, route s.cfg x ≠ .uart o) ∧
    (∀ x ∈ accessBytes (atomicAddress 6 s) 4, ∀ o, route s.cfg x ≠ .fb o) := by
  have h : InRam (start Config.default 0x80000000#32 [(6, 0x80001000#32), (7, 3#32)] 0x007322AF).cfg
      (atomicAddress 6 (start Config.default 0x80000000#32 [(6, 0x80001000#32), (7, 3#32)] 0x007322AF)) 4 := by
    exact inRam_of_all (by decide)
  refine ⟨by decide, by decide, by decide, by decide, by decide, by decide, (ram_not_device h).1, (ram_not_device h).2.1,
    (ram_not_device h).2.2.1, (ram_not_device h).2.2.2⟩

theorem witness_NonStoringFrame :
    writesMemory (.mul 5 6 7) = false ∧
    (∀ rd rs1 imm, Instr.mul 5 6 7 ≠ .lb rd rs1 imm ∧ Instr.mul 5 6 7 ≠ .lh rd rs1 imm
      ∧ Instr.mul 5 6 7 ≠ .lw rd rs1 imm ∧ Instr.mul 5 6 7 ≠ .lbu rd rs1 imm ∧ Instr.mul 5 6 7 ≠ .lhu rd rs1 imm
      ∧ Instr.mul 5 6 7 ≠ .lrW rd rs1) ∧
    execGives (.mul 5 6 7) State.reset (fun _ => true) = true ∧ Instr.mul 5 6 7 ≠ .wfi ∧
    touchesCsrs (.mul 5 6 7) = false ∧ Instr.mul 5 6 7 ≠ .ecall ∧ Instr.mul 5 6 7 ≠ .ebreak ∧
    destination (.mul 5 6 7) ≠ some 6 := by
  refine ⟨by decide, fun rd rs1 imm => ?_, by decide, by decide, by decide, by decide, by decide, by decide⟩
  simp

/-- A word store whose last byte is the top of the address space. -/
theorem witness_StoreThenReadGivesTheBytes :
    let s := start Config.default 0x80000000#32 [(6, 0xFFFFFFFC#32), (7, 0x44332211#32)] 0x00732023
    s.mem.wf = true ∧ InRam s.cfg (effectiveAddress 6 0#12 s) 4 ∧
    execGives (.sw 6 7 0#12) s (fun t => t.mem.read 0xFFFFFFFF#32 == 0x44#8) = true :=
  ⟨by decide, inRam_of_all (by decide), by decide⟩

/-- Operands of each clause: a zero divisor, the overflow, and an ordinary pair. -/
theorem witness_DivideResults :
    let z := start Config.default 0x80000000#32 [(6, 7#32)] 0x027342B3
    let o := start Config.default 0x80000000#32 [(6, 0x80000000#32), (7, 0xFFFFFFFF#32)] 0x027342B3
    let m := start Config.default 0x80000000#32 [(6, 0x80000000#32), (7, 1#32)] 0x027342B3
    z.readReg 7 = 0#32 ∧ (o.readReg 6 = 0x80000000#32 ∧ o.readReg 7 = 0xFFFFFFFF#32) ∧
    (m.readReg 7 ≠ 0#32 ∧ ¬ (m.readReg 6 = 0x80000000#32 ∧ m.readReg 7 = 0xFFFFFFFF#32)) := by decide

/-- A reservation without and with the address check, and the three ways `sc.w` fails. -/
theorem witness_ReservationInstructionResults :
    let holds := fun (s : State) (ea : Word) => s.resv = true ∧ (s.cfg.scAddressCheck = true → s.resvAddr = ea)
    let c : State := State.resetWith { Config.default with scAddressCheck := true }
    holds { State.reset with resv := true } 4#32 ∧ holds { c with resv := true, resvAddr := 4#32 } 4#32 ∧
    ¬ holds State.reset 4#32 ∧ ¬ holds c 0#32 ∧ ¬ holds { c with resv := true, resvAddr := 4#32 } 8#32 := by decide

theorem witness_OnlyLrAndScTouchTheReservation :
    let s : State := { start Config.default 0x80000000#32 [] 0x0FF0000F with resv := true }
    let u := start Config.default 0x80000000#32 [] 0x0FF0000F
    (touchesReservation .fence = false ∧ execGives .fence s (fun _ => true) = true) ∧
    (stepGives s (fun _ => true) = true ∧ s.resv = true ∧
      ∀ rd rs1 rs2, decodeWord (fetch (timeStep s)).1 ≠ .ok (.scW rd rs1 rs2)) ∧
    (stepGives u (fun _ => true) = true ∧ u.resv = false ∧
      ∀ rd rs1, decodeWord (fetch (timeStep u)).1 ≠ .ok (.lrW rd rs1)) := by
  have h : decodeWord (fetch (timeStep { start Config.default 0x80000000#32 [] 0x0FF0000F with resv := true })).1
      = .ok .fence := by decide
  have k : decodeWord (fetch (timeStep (start Config.default 0x80000000#32 [] 0x0FF0000F))).1 = .ok .fence := by
    decide
  refine ⟨by decide, ⟨by decide, by decide, fun rd rs1 rs2 => ?_⟩, ⟨by decide, by decide, fun rd rs1 => ?_⟩⟩
  · rw [h]; simp
  · rw [k]; simp

theorem witness_DefaultCsrTable :
    0x100#12 ∈ Config.default.csrSet ∧ 0x300#12 ∈ Config.default.csrSet ∧ 0xF14#12 ∈ Config.default.csrSet := by decide

/-- `mscratch` in M; 0x7C0 in no mode; `mstatus` from S; a write of `mhartid`. -/
theorem witness_CsrAccessorChecks :
    let s := State.reset
    let v : State := { State.reset with mode := .supervisor }
    (0x340#12 ∈ s.cfg.csrSet ∧ (0x340#12 : CsrAddr).toNat / 2 ^ 8 % 2 ^ 2 ≤ s.mode.bits.toNat ∧
      (0x340#12 : CsrAddr).toNat / 2 ^ 10 ≠ 3) ∧
    0x7C0#12 ∉ s.cfg.csrSet ∧ v.mode.bits.toNat < (0x300#12 : CsrAddr).toNat / 2 ^ 8 % 2 ^ 2 ∧
    (0xF14#12 : CsrAddr).toNat / 2 ^ 10 = 3 ∧
    (0x180#12 ∈ v.cfg.csrSet ∧ (0x180#12 : CsrAddr).toNat / 2 ^ 8 % 2 ^ 2 ≤ v.mode.bits.toNat) := by decide

theorem witness_CsrReadAfterWrite : csrIsRaw (csrReg 0x340#12) = true ∧ csrIsRaw (csrReg 0x3BF#12) = true := by decide

theorem witness_CsrWriteLeavesOthersAlone :
    sharesStorage (csrReg 0x300#12) (csrReg 0x304#12) = false ∧
    sharesStorage (csrReg 0x3B0#12) (csrReg 0x3B1#12) = false ∧
    sharesStorage (csrReg 0x7C0#12) (csrReg 0x7C1#12) = false := by decide

/-- Every clause of the register forms: it writes or not, and each check passes or fails. -/
theorem witness_CsrRegisterFormResults :
    let readOk := fun (s : State) (c : CsrAddr) => c ∈ s.cfg.csrSet ∧ c.toNat / 2 ^ 8 % 2 ^ 2 ≤ s.mode.bits.toNat
    let writeOk := fun (s : State) (c : CsrAddr) => readOk s c ∧ c.toNat / 2 ^ 10 ≠ 3
    let writes := fun (s : State) (rs1 : RegIdx) => s.cfg.csrRegSetClrX0Writes = true ∨ rs1 ≠ 0
    let s := State.reset
    let p := State.resetWith { Config.default with csrRegSetClrX0Writes := false }
    (writes s 0 ∧ writeOk s 0x340#12) ∧ ¬ writeOk s 0xF14#12 ∧ (¬ writes p 0 ∧ readOk p 0xF14#12) ∧
    (writes p 1 ∧ ¬ writeOk p 0xF14#12) ∧ ¬ readOk p 0x7C0#12 := by decide

theorem witness_CsrImmediateFormResults :
    let readOk := fun (s : State) (c : CsrAddr) => c ∈ s.cfg.csrSet ∧ c.toNat / 2 ^ 8 % 2 ^ 2 ≤ s.mode.bits.toNat
    let writeOk := fun (s : State) (c : CsrAddr) => readOk s c ∧ c.toNat / 2 ^ 10 ≠ 3
    let s := State.reset
    (31#5 ≠ 0#5 ∧ writeOk s 0x340#12) ∧ (1#5 ≠ 0#5 ∧ ¬ writeOk s 0xF14#12) ∧ readOk s 0xF14#12 ∧
    ¬ readOk { s with mode := .supervisor } 0x340#12 := by decide

/-- The self-test exits, the trapping and the default `ecall`, and the three values of `EBREAK_MODE`. -/
theorem witness_EcallAndEbreakResults :
    let t := { Config.default with selfTest := true }
    ((start t 0#32 [] 0x73).cfg.selfTest = true ∧ (start t 0#32 [] 0x73).readReg 10 = 0#32) ∧
    (start t 0#32 [(10, 42#32)] 0x73).readReg 10 = 42#32 ∧
    ((start t 0#32 [(10, 41#32)] 0x73).readReg 10 ≠ 0#32 ∧ (start t 0#32 [(10, 41#32)] 0x73).readReg 10 ≠ 42#32) ∧
    (State.reset.cfg.selfTest = false ∧ State.reset.cfg.ecallTraps = false ∧ State.reset.cfg.ebreakMode = .nop) ∧
    (State.resetWith { Config.default with ecallTraps := true }).cfg.ecallTraps = true ∧
    (State.resetWith { Config.default with ebreakMode := .breakpoint }).cfg.ebreakMode = .breakpoint ∧
    (State.resetWith { Config.default with ebreakMode := .halt }).cfg.ebreakMode = .halt := by decide

theorem witness_TrapReturnResults :
    let u : State := { State.reset with mode := .user }
    let v : State := { State.resetWith { Config.default with xretPrivCheck := false } with mode := .user }
    (u.cfg.xretPrivCheck = true ∧ u.mode ≠ .machine ∧ u.mode = .user) ∧ v.cfg.xretPrivCheck = false ∧
    State.reset.mode = .machine ∧ State.reset.mode ≠ .user := by decide

theorem witness_WfiResult :
    let s : State := { State.reset with clint.msip := true }
    (∃ k < 32, (updatePending s).csr.mip.getLsbD k = true) ∧
    (∀ k < 32, (updatePending State.reset).csr.mip.getLsbD k = false) := by decide

/-- A delegated exception (from M, with and without `DELEG_FROM_M`), a delegated interrupt, and one not delegated. -/
theorem witness_TrapTargetAndCauseValues :
    let d : State := { State.reset with csr.medeleg := 4#32, csr.mideleg := 0x20#32 }
    let n : State := { State.resetWith { Config.default with delegFromM := false } with csr.medeleg := 4#32 }
    (d.csr.medeleg.getLsbD (Exception.code .illegalInstruction) = true ∧ d.cfg.delegFromM = true) ∧
    d.csr.mideleg.getLsbD (Interrupt.code .supervisorTimer) = true ∧
    ¬ (n.csr.medeleg.getLsbD (Exception.code .illegalInstruction) = true ∧
      (n.cfg.delegFromM = true ∨ n.mode = .user ∨ n.mode = .supervisor)) ∧
    ¬ (State.reset.csr.medeleg.getLsbD (Exception.code .breakpoint) = true) := by decide

/-- Entries to M and to S, for an exception and for an interrupt. -/
theorem witness_TrapEntry :
    let d : State := { State.reset with csr.medeleg := 4#32, csr.mideleg := 0x20#32 }
    trapTarget (.exception .illegalInstruction) State.reset = .machine ∧
    trapTarget (.interrupt .machineTimer) State.reset = .machine ∧
    trapTarget (.exception .illegalInstruction) d = .supervisor ∧
    trapTarget (.interrupt .supervisorTimer) d = .supervisor := by decide

/-- MSI and MTI both ready in M: the first in the order is MSI. In the state after reset none is ready. -/
theorem witness_SamplingTakesTheFirstReadyInterrupt :
    let s : State := { State.reset with
      clint.msip := true, clint.mtimecmp := 0#64, csr.mie := 0x88#32, csr.mstatus := 8#32 }
    let ready := fun (i : Interrupt) (s : State) =>
      (updatePending s).csr.mip.getLsbD i.code = true ∧ (updatePending s).csr.mie.getLsbD i.code = true ∧
        globallyEnabled i (updatePending s) = true
    let rank := fun i : Interrupt => [11, 3, 7, 9, 1, 5].idxOf i.code
    ready .machineSoftware s ∧ ready .machineTimer s ∧
    (∀ j, ready j s → rank .machineSoftware ≤ rank j) ∧ ∀ j, ¬ ready j State.reset := by
  refine ⟨by decide, by decide, fun j => ?_, fun j => ?_⟩ <;> cases j <;> decide

theorem witness_ExceptionBlocksInterruptsOfItsTarget :
    let d : State := { State.reset with mode := .user, csr.medeleg := 4#32 }
    State.reset.cfg.trapStacksIe = true ∧ trapTarget (.exception .illegalInstruction) State.reset = .machine ∧
    d.cfg.trapStacksIe = true ∧ trapTarget (.exception .illegalInstruction) d = .supervisor := by decide

/-- An illegal CSR access from U; both returns; a CSR write; an `mret` with MPP = 2 (95_test_vectors.md V160). -/
theorem witness_ModeChangesOnlyByTrapAndReturn :
    let u : State := { State.reset with mode := .user }
    let s : State := { start Config.default 0x80000000#32 [] 0x30200073 with
      csr.mstatus := 0x1000#32, csr.mepc := 0x80000100#32 }
    (isTrapReturn (.csrrw 0 0x300#12 6) = false ∧
      execGives (.csrrw 0 0x300#12 6) u (fun t => t.mode == .machine) = true) ∧
    execGives .mret State.reset (fun t => t.mode == .user) = true ∧
    execGives .sret State.reset (fun t => t.mode == .user) = true ∧
    (csrSet 0x300#12 0x1888#32 State.reset).isSome = true ∧
    stepGives s (fun t => t.mode == .hypervisor) = true ∧ s.mode ≠ .hypervisor := by decide

/-- Steps that start in U and in S. -/
theorem witness_LowerModesCannotConfigureHigherOnes :
    let u : State := { start Config.default 0x80000000#32 [(6, 0x1888#32)] 0x30031073 with mode := .user }
    let v : State := { start Config.default 0x80000000#32 [(6, 0x222#32)] 0x10431073 with mode := .supervisor }
    (stepGives u (fun _ => true) = true ∧ u.mode ≠ .machine ∧ u.mode = .user) ∧
    (stepGives v (fun t => t.csr.mie == 0x222#32) = true ∧ v.mode ≠ .machine) := by decide

/-- The state after reset meets the invariant (with the default parameters). -/
theorem reset_inv : State.reset.Inv where
  x0 := by decide
  mem := by decide
  fb := by decide
  other := by decide
  mstatus := by decide
  mip := by decide
  lsr := by decide
  priority := ⟨by decide, by decide⟩
  pending := ⟨by decide, by decide⟩
  enable := ⟨by decide, by decide⟩
  inService := ⟨by decide, by decide⟩
  claimLatch := .inl rfl

theorem witness_EveryStepKeepsTheInvariant : State.reset.Inv ∧ stepGives State.reset (fun _ => true) = true :=
  ⟨reset_inv, by decide⟩

/-- A step that sends a byte (95_test_vectors.md V64), and an instruction that cannot. -/
theorem witness_ParametersStayAndOutputGrows :
    stepGives (start Config.default 0x80000000#32 [(8, 0x10000000#32), (7, 0x41#32)] 0x00740023)
      (fun t => t.uart.output == [0x41#8]) = true ∧
    (writesMemory .fence = false ∧ execGives .fence State.reset (fun _ => true) = true) := by decide

theorem witness_ResetState : State.reset.csr.mie = 0#32 := by decide

/-- An image at the first and the last address of RAM above 0x80000000, and one that overlaps the UART's window. -/
theorem witness_ImageIsLoadedIntoRam :
    let ok : List Host.Cell := [(0x80000000, 0x13#8), (0xFFFFFFFF, 0x01#8)]
    let bad : List Host.Cell := [(0x100000FF, 0x01#8)]
    State.reset.mem.wf = true ∧
    (∀ e ∈ ok, e.1 < 2 ^ 32 ∧ route State.reset.cfg (BitVec.ofNat 32 e.1) = .ram) ∧ (ok.map Prod.fst).Nodup ∧
    (∃ e ∈ bad, ¬ (e.1 < 2 ^ 32 ∧ route State.reset.cfg (BitVec.ofNat 32 e.1) = .ram)) := by decide

theorem witness_PlacedWordIsFetched : State.reset.mem.wf = true ∧ InRam State.reset.cfg State.reset.pc 4 :=
  ⟨by decide, inRam_of_all (by decide)⟩

/-- The first and the last byte of each window, and the bytes next to them. -/
theorem witness_DecoderRoutesByWindow :
    let inside := fun (a base : Word) (size : Nat) => base.toNat ≤ a.toNat ∧ a.toNat < base.toNat + size
    State.reset.cfg.valid = true ∧
    inside 0x02000000#32 0x02000000#32 0x10000 ∧ inside 0x0200FFFF#32 0x02000000#32 0x10000 ∧
    inside 0x0C000000#32 0x0C000000#32 0x4000000 ∧ inside 0x0FFFFFFF#32 0x0C000000#32 0x4000000 ∧
    inside 0x10000000#32 0x10000000#32 0x100 ∧ inside 0x100000FF#32 0x10000000#32 0x100 ∧
    inside 0x20000000#32 0x20000000#32 (640 * 480 * 4) ∧ inside 0x2012BFFF#32 0x20000000#32 (640 * 480 * 4) ∧
    (¬ inside 0x02010000#32 0x02000000#32 0x10000 ∧ ¬ inside 0x02010000#32 0x0C000000#32 0x4000000 ∧
      ¬ inside 0x02010000#32 0x10000000#32 0x100 ∧ ¬ inside 0x02010000#32 0x20000000#32 (640 * 480 * 4)) := by decide

theorem witness_UartRegisterEffects :
    Uart.reset.lcr.getLsbD 7 = false ∧ ({ Uart.reset with lcr := 0x80#8 } : Uart).lcr.getLsbD 7 = true ∧
    Uart.reset.input.next = [] ∧ ({ Uart.reset with input := ⟨[none], 0⟩ } : Uart).input.next = none :: [] ∧
    ({ Uart.reset with input := ⟨[some 0x61#8], 0⟩ } : Uart).input.next = some 0x61#8 :: [] ∧ 8 ≤ 255 := by decide

theorem witness_FramebufferBytes :
    Sparse.wf ([(0, 0xFF000000#32)] : Sparse 32) = true ∧
    fbReadByte ([(0, 0xFF000000#32)] : Sparse 32) 3 = 0xFF#8 ∧ (3 : Nat) ≠ 4 := by decide

/-- The default numbers of sources and contexts, with the first and the last source, the last byte of a word, and the
first offset of each gap: past the priorities, past the pending word, between the enable word and the threshold, and
past the claim register. -/
theorem witness_PlicRegisterBytes :
    32 ≤ 1024 ∧ 1 < 15872 ∧ Sparse.wf Plic.reset.priority = true ∧ Sparse.wf Plic.reset.enable = true ∧
    (1 ≤ 1 ∧ 1 < 32 ∧ 0 < 4) ∧ (1 ≤ 31 ∧ 31 < 32 ∧ 3 < 4) ∧ 8 * 3 < 32 ∧
    (∀ o ∈ [0x80, 0xFFF, 0x1004, 0x207F, 0x2084, 0x200FFF, 0x201008], 4 * 32 ≤ o ∧
      (o < 0x1000 ∨ 0x1000 + (32 + 7) / 8 ≤ o) ∧ (o < 0x2000 + 0x80 * 1 ∨ 0x2000 + 0x80 * 1 + (32 + 7) / 8 ≤ o) ∧
      (o < 0x200000 + 0x1000 * 1 ∨ 0x200000 + 0x1000 * 1 + 8 ≤ o)) := by decide

/-- Two claimable sources of equal priority: the smaller id is the one to take; after reset none is claimable. -/
theorem witness_PlicClaimTakesTheHighestPriority :
    let p : Plic := { Plic.reset with
      pending := [(3, 1#1), (10, 1#1)], enable := [(3, 1#1), (10, 1#1)], priority := [(3, 1#32), (10, 1#32)] }
    let claimable := fun (p : Plic) (s : Nat) => 1 ≤ s ∧ s < 32 ∧ bitAt p.pending s = true ∧ bitAt p.enable s = true ∧
      p.threshold.toNat < (Sparse.get p.priority s).toNat
    Sparse.wf p.pending = true ∧ Sparse.wf p.inService = true ∧ claimable p 3 ∧
    (∀ s, claimable p s → (Sparse.get p.priority s).toNat < (Sparse.get p.priority 3).toNat ∨
      (Sparse.get p.priority s).toNat = (Sparse.get p.priority 3).toNat ∧ 3 ≤ s) ∧
    (∀ s, ¬ claimable Plic.reset s) ∧ (1 ≤ 3 ∧ 3 < 4) := by
  intro p claimable
  refine ⟨by decide, by decide, by decide, fun s h => ?_, fun s h => ?_, by decide⟩
  · have hs : s < 32 := h.2.1
    revert h
    interval_cases s <;> decide
  · simp [claimable, Plic.reset, bitAt, Sparse.get, unlisted] at h

theorem witness_PlicCompletionGatewaysAndOutput :
    Sparse.wf Plic.reset.pending = true ∧ Sparse.wf Plic.reset.inService = true ∧
    (1 ≤ (31#8 : Byte).toNat ∧ (31#8 : Byte).toNat < 32) ∧ 32 ≤ (32#8 : Byte).toNat ∧ (0#8 : Byte).toNat = 0 := by
  decide

end Sys2Proof.Tests
end

section
/-!
The round trip of 30_encoding.md R202: the decoder reads back the fields a format was built from (R171 to R178), and
each format puts a word together again from the fields the decoder reads.
-/

namespace Sys2Proof

/-! ## The decoder -/

/-- The zero word is in no row of the decode map, so a word decodes exactly when the map gives an instruction. -/
theorem decodeWord_eq_ok_iff (w : Word) (i : Instr) : decodeWord w = .ok i ↔ decodeMap w = some i := by
  unfold decodeWord
  split
  case isTrue hzero => subst hzero; simp [decodeMap, opcode]
  case isFalse => cases decodeMap w <;> simp

/-- The value of funct3 in the last row of R187 and R188, whose other rows are 0 to 6. -/
theorem eq_seven_of_ne : ∀ x : BitVec 3, (x = 0#3 → False) → (x = 1#3 → False) → (x = 2#3 → False) →
    (x = 3#3 → False) → (x = 4#3 → False) → (x = 5#3 → False) → (x = 6#3 → False) → x = 7#3 := by
  decide

/-! ## Fields of an encoded word, under the decoder's names -/

@[simp] theorem fields_encodeR (f7 : BitVec 7) (f3 : BitVec 3) (op : BitVec 7) (rd rs1 rs2 : RegIdx) :
    opcode (encodeR f7 f3 op rd rs1 rs2) = op ∧ funct3 (encodeR f7 f3 op rd rs1 rs2) = f3 ∧
    funct7 (encodeR f7 f3 op rd rs1 rs2) = f7 ∧ rdField (encodeR f7 f3 op rd rs1 rs2) = rd ∧
    rs1Field (encodeR f7 f3 op rd rs1 rs2) = rs1 ∧ rs2Field (encodeR f7 f3 op rd rs1 rs2) = rs2 := by
  simp [opcode, funct3, funct7, rdField, rs1Field, rs2Field, regField]

@[simp] theorem fields_encodeAmo (f5 : BitVec 5) (rd rs1 rs2 : RegIdx) :
    opcode (encodeAmo f5 rd rs1 rs2) = 0b0101111#7 ∧ funct3 (encodeAmo f5 rd rs1 rs2) = 2#3 ∧
    funct5 (encodeAmo f5 rd rs1 rs2) = f5 ∧ rdField (encodeAmo f5 rd rs1 rs2) = rd ∧
    rs1Field (encodeAmo f5 rd rs1 rs2) = rs1 ∧ rs2Field (encodeAmo f5 rd rs1 rs2) = rs2 := by
  simp [opcode, funct3, funct5, rdField, rs1Field, rs2Field, regField]

@[simp] theorem fields_encodeI (f3 : BitVec 3) (op : BitVec 7) (rd : RegIdx) (rs1 : BitVec 5) (imm : BitVec 12) :
    opcode (encodeI f3 op rd rs1 imm) = op ∧ funct3 (encodeI f3 op rd rs1 imm) = f3 ∧
    rdField (encodeI f3 op rd rs1 imm) = rd ∧ rs1Field (encodeI f3 op rd rs1 imm) = rs1.toFin ∧
    zimmField (encodeI f3 op rd rs1 imm) = rs1 ∧ immI (encodeI f3 op rd rs1 imm) = imm ∧
    csrField (encodeI f3 op rd rs1 imm) = imm := by
  simp [opcode, funct3, rdField, rs1Field, regField, zimmField, immI, csrField]

/-- R188: a shift's immediate field is its funct7 over its shift amount. -/
@[simp] theorem fields_encodeI_shift (f3 : BitVec 3) (op : BitVec 7) (rd : RegIdx) (rs1 : BitVec 5) (f7 : BitVec 7)
    (shamt : BitVec 5) :
    funct7 (encodeI f3 op rd rs1 (f7 ++ shamt)) = f7 ∧ shamtField (encodeI f3 op rd rs1 (f7 ++ shamt)) = shamt := by
  rw [funct7, shamtField, encodeI_funct7, encodeI_shamt]
  exact ⟨BitVec.extractLsb'_append_eq_left, BitVec.extractLsb'_append_eq_right⟩

@[simp] theorem fields_encodeS (f3 : BitVec 3) (rs1 rs2 : RegIdx) (imm : BitVec 12) :
    opcode (encodeS f3 rs1 rs2 imm) = 0b0100011#7 ∧ funct3 (encodeS f3 rs1 rs2 imm) = f3 ∧
    rs1Field (encodeS f3 rs1 rs2 imm) = rs1 ∧ rs2Field (encodeS f3 rs1 rs2 imm) = rs2 := by
  simp [opcode, funct3, rs1Field, rs2Field, regField]

@[simp] theorem fields_encodeB (f3 : BitVec 3) (rs1 rs2 : RegIdx) (off : BitVec 13) :
    opcode (encodeB f3 rs1 rs2 off) = 0b1100011#7 ∧ funct3 (encodeB f3 rs1 rs2 off) = f3 ∧
    rs1Field (encodeB f3 rs1 rs2 off) = rs1 ∧ rs2Field (encodeB f3 rs1 rs2 off) = rs2 := by
  simp [opcode, funct3, rs1Field, rs2Field, regField]

@[simp] theorem fields_encodeU (op : BitVec 7) (rd : RegIdx) (imm : BitVec 20) :
    opcode (encodeU op rd imm) = op ∧ rdField (encodeU op rd imm) = rd ∧ immU (encodeU op rd imm) = imm := by
  simp [opcode, rdField, regField, immU]

@[simp] theorem fields_encodeJ (rd : RegIdx) (off : BitVec 21) :
    opcode (encodeJ rd off) = 0b1101111#7 ∧ rdField (encodeJ rd off) = rd := by
  simp [opcode, rdField, regField]

/-! ## Split immediates of an encoded word -/

@[simp] theorem immS_encodeS (f3 : BitVec 3) (rs1 rs2 : RegIdx) (imm : BitVec 12) :
    immS (encodeS f3 rs1 rs2 imm) = imm := by
  simp only [immS, encodeS_high, encodeS_low, BitVec.extractLsb'_append_extractLsb'_eq_extractLsb']
  exact BitVec.extractLsb'_eq_self

/-- An offset whose bit 0 is 0 ends in the zero field that `immB` and `immJ` append. -/
theorem extractLsb'_zero_one_of_even {n : Nat} {off : BitVec n} (h : off.getLsbD 0 = false) :
    0#1 = off.extractLsb' 0 1 := by
  apply BitVec.eq_of_getLsbD_eq
  intro i hi
  have hi0 : i = 0 := by omega
  simp [hi0, h]

theorem immB_encodeB (f3 : BitVec 3) (rs1 rs2 : RegIdx) {off : BitVec 13} (h : evenBranchOffset off = true) :
    immB (encodeB f3 rs1 rs2 off) = off := by
  have hzero : 0#1 = off.extractLsb' 0 1 := extractLsb'_zero_one_of_even (beq_iff_eq.mp h)
  simp only [immB, hzero, encodeB_bit12, encodeB_bit11, encodeB_high, encodeB_low,
    BitVec.extractLsb'_append_extractLsb'_eq_extractLsb']
  exact BitVec.extractLsb'_eq_self

theorem immJ_encodeJ (rd : RegIdx) {off : BitVec 21} (h : evenJumpOffset off = true) :
    immJ (encodeJ rd off) = off := by
  have hzero : 0#1 = off.extractLsb' 0 1 := extractLsb'_zero_one_of_even (beq_iff_eq.mp h)
  simp only [immJ, hzero, encodeJ_bit20, encodeJ_mid, encodeJ_bit11, encodeJ_low,
    BitVec.extractLsb'_append_extractLsb'_eq_extractLsb']
  exact BitVec.extractLsb'_eq_self

/-! ## Decoding an encoded instruction -/

/-- One case per group of R185: the word's opcode selects the group's table, its funct fields the row, and the
operand fields are those the format was built from. -/
theorem decodeMap_encode (i : Instr) (hwf : i.wellFormed = true) : decodeMap (encode i) = some i := by
  cases i
  case lui | auipc => simp [encode, decodeMap]
  case addi | slti | sltiu | xori | ori | andi | slli | srli | srai => simp [encode, decodeMap, decodeOpImm]
  case add | sub | sll | slt | sltu | xor | srl | sra | or | and | mul | mulh | mulhsu | mulhu | div | divu | rem
      | remu => simp [encode, decodeMap, decodeOp]
  case jal => simp [encode, decodeMap, immJ_encodeJ _ hwf]
  case jalr => simp [encode, decodeMap, decodeJalr]
  case beq | bne | blt | bge | bltu | bgeu => simp [encode, decodeMap, decodeBranch, immB_encodeB _ _ _ hwf]
  case lb | lh | lw | lbu | lhu => simp [encode, decodeMap, decodeLoad]
  case sb | sh | sw => simp [encode, decodeMap, decodeStore]
  case lrW | scW | amoswapW | amoaddW | amoxorW | amoandW | amoorW | amominW | amomaxW | amominuW | amomaxuW =>
    simp [encode, decodeMap, decodeAmo]
  case csrrw | csrrs | csrrc | csrrwi | csrrsi | csrrci => simp [encode, decodeMap, decodeSystem]
  case fence | fenceI | ecall | ebreak | mret | sret | wfi => rfl

/-! ## A word put together again from its fields -/

@[simp] theorem regBits_regField (w : Word) (lo : Nat) : regBits (regField w lo) = w.extractLsb' lo 5 := rfl

section
variable {w : Word} {f3 : BitVec 3} {op f7 : BitVec 7}

theorem encodeR_fields (h7 : funct7 w = f7) (h3 : funct3 w = f3) (ho : opcode w = op) :
    encodeR f7 f3 op (rdField w) (rs1Field w) (rs2Field w) = w := by
  subst h7 h3 ho
  simp only [encodeR, funct7, funct3, opcode, rdField, rs1Field, rs2Field, regBits_regField,
    BitVec.extractLsb'_append_extractLsb'_eq_extractLsb']
  exact BitVec.extractLsb'_eq_self

theorem encodeI_fields (h3 : funct3 w = f3) (ho : opcode w = op) :
    encodeI f3 op (rdField w) (zimmField w) (immI w) = w := by
  subst h3 ho
  simp only [encodeI, funct3, opcode, rdField, zimmField, immI, regBits_regField,
    BitVec.extractLsb'_append_extractLsb'_eq_extractLsb']
  exact BitVec.extractLsb'_eq_self

theorem encodeI_fields_shift (h7 : funct7 w = f7) (h3 : funct3 w = f3) (ho : opcode w = op) :
    encodeI f3 op (rdField w) (zimmField w) (f7 ++ shamtField w) = w := by
  have himm : funct7 w ++ shamtField w = immI w := BitVec.extractLsb'_append_extractLsb'_eq_extractLsb' rfl
  rw [← h7, himm, encodeI_fields h3 ho]

theorem immS_parts (w : Word) :
    (immS w).extractLsb' 5 7 = w.extractLsb' 25 7 ∧ (immS w).extractLsb' 0 5 = w.extractLsb' 7 5 :=
  ⟨BitVec.extractLsb'_append_eq_left, BitVec.extractLsb'_append_eq_right⟩

theorem encodeS_fields (h3 : funct3 w = f3) (ho : opcode w = 0b0100011#7) :
    encodeS f3 (rs1Field w) (rs2Field w) (immS w) = w := by
  subst h3
  simp only [encodeS, immS_parts, ← ho, funct3, opcode, rs1Field, rs2Field, regBits_regField,
    BitVec.extractLsb'_append_extractLsb'_eq_extractLsb']
  exact BitVec.extractLsb'_eq_self

theorem immB_parts (w : Word) :
    (immB w).extractLsb' 12 1 = w.extractLsb' 31 1 ∧ (immB w).extractLsb' 11 1 = w.extractLsb' 7 1 ∧
    (immB w).extractLsb' 5 6 = w.extractLsb' 25 6 ∧ (immB w).extractLsb' 1 4 = w.extractLsb' 8 4 := by
  simp only [immB, BitVec.extractLsb'_append_eq_of_le, BitVec.extractLsb'_append_eq_right,
    BitVec.extractLsb'_eq_self, Nat.reduceLeDiff, Nat.reduceSub, and_self]

theorem encodeB_fields (h3 : funct3 w = f3) (ho : opcode w = 0b1100011#7) :
    encodeB f3 (rs1Field w) (rs2Field w) (immB w) = w := by
  subst h3
  simp only [encodeB, immB_parts, ← ho, funct3, opcode, rs1Field, rs2Field, regBits_regField,
    BitVec.extractLsb'_append_extractLsb'_eq_extractLsb']
  exact BitVec.extractLsb'_eq_self

theorem encodeU_fields (ho : opcode w = op) : encodeU op (rdField w) (immU w) = w := by
  subst ho
  simp only [encodeU, opcode, rdField, immU, regBits_regField, BitVec.extractLsb'_append_extractLsb'_eq_extractLsb']
  exact BitVec.extractLsb'_eq_self

theorem immJ_parts (w : Word) :
    (immJ w).extractLsb' 20 1 = w.extractLsb' 31 1 ∧ (immJ w).extractLsb' 12 8 = w.extractLsb' 12 8 ∧
    (immJ w).extractLsb' 11 1 = w.extractLsb' 20 1 ∧ (immJ w).extractLsb' 1 10 = w.extractLsb' 21 10 := by
  simp only [immJ, BitVec.extractLsb'_append_eq_of_le, BitVec.extractLsb'_append_eq_right,
    BitVec.extractLsb'_eq_self, Nat.reduceLeDiff, Nat.reduceSub, and_self]

theorem encodeJ_fields (ho : opcode w = 0b1101111#7) : encodeJ (rdField w) (immJ w) = w := by
  simp only [encodeJ, immJ_parts, ← ho, opcode, rdField, regBits_regField,
    BitVec.extractLsb'_append_extractLsb'_eq_extractLsb']
  exact BitVec.extractLsb'_eq_self

end

theorem evenBranchOffset_immB (w : Word) : evenBranchOffset (immB w) = true := by
  simp only [evenBranchOffset, immB, BitVec.getLsbD_append]
  rfl

theorem evenJumpOffset_immJ (w : Word) : evenJumpOffset (immJ w) = true := by
  simp only [evenJumpOffset, immJ, BitVec.getLsbD_append]
  rfl

/-! ## Formats with ignored fields (R196): equal on the other bits -/

section
variable {w : Word}

/-- Every bit but aq and rl. -/
theorem encodeAmo_fields_and {f5 : BitVec 5} (h5 : funct5 w = f5) (h3 : funct3 w = 2#3)
    (ho : opcode w = 0b0101111#7) :
    encodeAmo f5 (rdField w) (rs1Field w) (rs2Field w) &&& 0xF9FFFFFF#32 = w &&& 0xF9FFFFFF#32 := by
  apply BitVec.eq_of_getLsbD_eq
  intro i hi
  simp only [encodeAmo, ← h5, ← h3, ← ho, funct5, funct3, opcode, rdField, rs1Field, rs2Field, regBits_regField,
    BitVec.getLsbD_and, BitVec.getLsbD_append, BitVec.getLsbD_extractLsb']
  interval_cases i <;> simp

/-- Every bit but aq, rl and the rs2 field. -/
theorem encodeAmo_fields_and_lr {f5 : BitVec 5} (r : RegIdx) (h5 : funct5 w = f5) (h3 : funct3 w = 2#3)
    (ho : opcode w = 0b0101111#7) :
    encodeAmo f5 (rdField w) (rs1Field w) r &&& 0xF80FFFFF#32 = w &&& 0xF80FFFFF#32 := by
  apply BitVec.eq_of_getLsbD_eq
  intro i hi
  simp only [encodeAmo, ← h5, ← h3, ← ho, funct5, funct3, opcode, rdField, rs1Field, regBits_regField,
    BitVec.getLsbD_and, BitVec.getLsbD_append, BitVec.getLsbD_extractLsb']
  interval_cases i <;> simp

theorem encodeFence_fields_and {f3 : BitVec 3} (h3 : funct3 w = f3) (ho : opcode w = 0b0001111#7) :
    encodeFence f3 &&& 0x0000707F#32 = w &&& 0x0000707F#32 := by
  apply BitVec.eq_of_getLsbD_eq
  intro i hi
  simp only [encodeFence, ← h3, ← ho, funct3, opcode, BitVec.getLsbD_and, BitVec.getLsbD_append,
    BitVec.getLsbD_extractLsb']
  interval_cases i <;> simp

theorem encodeSystem_fields_and {f12 : BitVec 12} (h12 : funct12 w = f12) (h3 : funct3 w = 0#3)
    (ho : opcode w = 0b1110011#7) : encodeSystem f12 &&& 0xFFF0707F#32 = w &&& 0xFFF0707F#32 := by
  have hzero : 0#13 = 0#5 ++ funct3 w ++ 0#5 := by rw [h3]; rfl
  apply BitVec.eq_of_getLsbD_eq
  intro i hi
  simp only [encodeSystem, hzero, ← h12, ← ho, funct12, funct3, opcode, BitVec.getLsbD_and, BitVec.getLsbD_append,
    BitVec.getLsbD_extractLsb']
  interval_cases i <;> simp

end

/-! ## Encoding a decoded word -/

open Sys2Proof.Machine

/-- The second half of R202: `i` has a word, and it is `w` but for the bits the decoder ignores. -/
def EncodesBack (w : Word) (i : Instr) : Prop := i.wellFormed = true ∧ encode i &&& usedBits i = w &&& usedBits i

/-- A format with no ignored field gives the whole word back. -/
theorem EncodesBack.of_encode_eq {w : Word} {i : Instr} (hwf : i.wellFormed = true) (h : encode i = w) :
    EncodesBack w i :=
  ⟨hwf, congrArg (· &&& usedBits i) h⟩

section
variable {w : Word} {i : Instr}

theorem encodesBack_of_decodeOp (ho : opcode w = 0b0110011#7) (h : decodeOp w = some i) : EncodesBack w i := by
  unfold decodeOp at h
  split at h
  case h_1 h7 | h_3 h7 =>
    split at h <;> cases h
    case h_8 => exact .of_encode_eq rfl (encodeR_fields h7 (eq_seven_of_ne _ ‹_› ‹_› ‹_› ‹_› ‹_› ‹_› ‹_›) ho)
    all_goals exact .of_encode_eq rfl (encodeR_fields h7 ‹_› ho)
  case h_2 h7 => split at h <;> cases h <;> exact .of_encode_eq rfl (encodeR_fields h7 ‹_› ho)
  case h_4 => cases h

theorem encodesBack_of_decodeLoad (ho : opcode w = 0b0000011#7) (h : decodeLoad w = some i) : EncodesBack w i := by
  unfold decodeLoad at h
  split at h <;> cases h <;> exact .of_encode_eq rfl (encodeI_fields ‹_› ho)

theorem encodesBack_of_decodeStore (ho : opcode w = 0b0100011#7) (h : decodeStore w = some i) : EncodesBack w i := by
  unfold decodeStore at h
  split at h <;> cases h <;> exact .of_encode_eq rfl (encodeS_fields ‹_› ho)

theorem encodesBack_of_decodeBranch (ho : opcode w = 0b1100011#7) (h : decodeBranch w = some i) :
    EncodesBack w i := by
  unfold decodeBranch at h
  split at h <;> cases h <;> exact .of_encode_eq (evenBranchOffset_immB w) (encodeB_fields ‹_› ho)

theorem encodesBack_of_decodeJalr (ho : opcode w = 0b1100111#7) (h : decodeJalr w = some i) : EncodesBack w i := by
  unfold decodeJalr at h
  split at h
  case h_1 h3 => cases h; exact .of_encode_eq rfl (encodeI_fields h3 ho)
  case h_2 => cases h

theorem encodesBack_of_decodeMiscMem (ho : opcode w = 0b0001111#7) (h : decodeMiscMem w = some i) :
    EncodesBack w i := by
  unfold decodeMiscMem at h
  split at h <;> cases h <;> exact ⟨rfl, encodeFence_fields_and ‹_› ho⟩

theorem encodesBack_of_decodeOpImm (ho : opcode w = 0b0010011#7) (h : decodeOpImm w = some i) : EncodesBack w i := by
  unfold decodeOpImm at h
  split at h
  case h_2 h3 | h_6 h3 => split at h <;> cases h <;> exact .of_encode_eq rfl (encodeI_fields_shift ‹_› h3 ho)
  case h_8 =>
    cases h
    exact .of_encode_eq rfl (encodeI_fields (eq_seven_of_ne _ ‹_› ‹_› ‹_› ‹_› ‹_› ‹_› ‹_›) ho)
  all_goals cases h; exact .of_encode_eq rfl (encodeI_fields ‹_› ho)

theorem encodesBack_of_decodeSystem (ho : opcode w = 0b1110011#7) (h : decodeSystem w = some i) :
    EncodesBack w i := by
  unfold decodeSystem at h
  split at h
  case h_1 h3 => split at h <;> cases h <;> exact ⟨rfl, encodeSystem_fields_and ‹_› h3 ho⟩
  all_goals cases h <;> exact .of_encode_eq rfl (encodeI_fields ‹_› ho)

theorem encodesBack_of_decodeAmo (ho : opcode w = 0b0101111#7) (h : decodeAmo w = some i) : EncodesBack w i := by
  unfold decodeAmo at h
  split at h
  case h_2 => cases h
  case h_1 h3 =>
    split at h <;> cases h
    case h_1 h5 => exact ⟨rfl, encodeAmo_fields_and_lr 0 h5 h3 ho⟩
    all_goals exact ⟨rfl, encodeAmo_fields_and ‹_› h3 ho⟩

theorem encodesBack_of_decodeMap (h : decodeMap w = some i) : EncodesBack w i := by
  unfold decodeMap at h
  split at h
  case h_1 ho => exact encodesBack_of_decodeLoad ho h
  case h_2 ho => exact encodesBack_of_decodeMiscMem ho h
  case h_3 ho => exact encodesBack_of_decodeOpImm ho h
  case h_4 ho => cases h; exact .of_encode_eq rfl (encodeU_fields ho)
  case h_5 ho => exact encodesBack_of_decodeStore ho h
  case h_6 ho => exact encodesBack_of_decodeAmo ho h
  case h_7 ho => exact encodesBack_of_decodeOp ho h
  case h_8 ho => cases h; exact .of_encode_eq rfl (encodeU_fields ho)
  case h_9 ho => exact encodesBack_of_decodeBranch ho h
  case h_10 ho => exact encodesBack_of_decodeJalr ho h
  case h_11 ho => cases h; exact .of_encode_eq (evenJumpOffset_immJ w) (encodeJ_fields ho)
  case h_12 ho => exact encodesBack_of_decodeSystem ho h
  case h_13 => cases h

end

end Sys2Proof

open Sys2Proof

/-- Settles O1: a word decodes exactly when the decode map gives an instruction; the map reads back the fields a format
was built from, and the formats put a word together again from the fields the map reads. -/
theorem decodeEncodeRoundTrip : Obligations.DecodeEncodeRoundTrip :=
  ⟨fun i hwf => (decodeWord_eq_ok_iff _ i).mpr (decodeMap_encode i hwf),
    fun w i h => encodesBack_of_decodeMap ((decodeWord_eq_ok_iff w i).mp h)⟩
end

section
/-!
The immediates of 30_encoding.md R179 to R183 as numbers: each is a concatenation of fields of the word whose first
field ends at bit 31.
-/

namespace Sys2Proof.Machine

/-! ## Numbers of fields and of concatenated fields -/

/-- A field of a word, as a number. -/
theorem toNat_extractLsb'_eq_div_mod (w : Word) (lo n : Nat) :
    (w.extractLsb' lo n).toNat = w.toNat / 2 ^ lo % 2 ^ n := by
  rw [BitVec.extractLsb'_toNat, Nat.shiftRight_eq_div_pow]

/-- The upper part of a concatenation carries the sign; the lower part counts as it stands. -/
theorem toInt_append_of_neZero {n m : Nat} [NeZero n] (x : BitVec n) (y : BitVec m) :
    (x ++ y).toInt = x.toInt * 2 ^ m + (y.toNat : Int) := by
  have hn : (n == 0) = false := beq_eq_false_iff_ne.mpr (NeZero.ne n)
  rw [BitVec.toInt_append, hn, Int.mul_comm]
  rfl

/-- The field that ends at the top bit is the signed quotient: the bits below it are the remainder. -/
theorem toInt_extractLsb'_top {n lo : Nat} [NeZero n] (w : BitVec (n + lo)) :
    (w.extractLsb' lo n).toInt = w.toInt / 2 ^ lo := by
  have hw : w.extractLsb' lo n ++ w.extractLsb' 0 lo = w := by
    rw [BitVec.extractLsb'_append_extractLsb'_eq_extractLsb' (Nat.zero_add lo).symm, BitVec.extractLsb'_eq_self]
  have hlow : ((w.extractLsb' 0 lo).toNat : Int) < 2 ^ lo := by exact_mod_cast (w.extractLsb' 0 lo).isLt
  conv_rhs =>
    rw [← hw, toInt_append_of_neZero, Int.add_comm, Int.add_mul_ediv_right _ _ (by positivity),
      Int.ediv_eq_zero_of_lt (Int.natCast_nonneg _) hlow, Int.zero_add]

/-! ## Extended immediates (R179 to R183) -/

@[simp] theorem toInt_imm12 (imm : BitVec 12) : (imm12 imm).toInt = imm.toInt :=
  BitVec.toInt_signExtend_of_le (by decide)

@[simp] theorem toInt_branchOffset (off : BitVec 13) : (branchOffset off).toInt = off.toInt :=
  BitVec.toInt_signExtend_of_le (by decide)

@[simp] theorem toInt_jumpOffset (off : BitVec 21) : (jumpOffset off).toInt = off.toInt :=
  BitVec.toInt_signExtend_of_le (by decide)

theorem toInt_immI (w : Word) : (immI w).toInt = w.toInt / 2 ^ 20 :=
  toInt_extractLsb'_top (n := 12) (lo := 20) w

theorem toInt_immS (w : Word) :
    (immS w).toInt = w.toInt / 2 ^ 25 * 2 ^ 5 + ((w.toNat / 2 ^ 7 % 2 ^ 5 : Nat) : Int) := by
  rw [immS, toInt_append_of_neZero, toInt_extractLsb'_top (n := 7) (lo := 25) w, toNat_extractLsb'_eq_div_mod]

theorem toInt_immB (w : Word) :
    (immB w).toInt =
      w.toInt / 2 ^ 31 * 2 ^ 12 + ((w.toNat / 2 ^ 7 % 2 : Nat) : Int) * 2 ^ 11
        + ((w.toNat / 2 ^ 25 % 2 ^ 6 : Nat) : Int) * 2 ^ 5 + ((w.toNat / 2 ^ 8 % 2 ^ 4 : Nat) : Int) * 2 := by
  simp only [immB, toInt_append_of_neZero, toInt_extractLsb'_top (n := 1) (lo := 31) w, toNat_extractLsb'_eq_div_mod,
    BitVec.toNat_zero, pow_one]
  ring

theorem toInt_immJ (w : Word) :
    (immJ w).toInt =
      w.toInt / 2 ^ 31 * 2 ^ 20 + ((w.toNat / 2 ^ 12 % 2 ^ 8 : Nat) : Int) * 2 ^ 12
        + ((w.toNat / 2 ^ 20 % 2 : Nat) : Int) * 2 ^ 11 + ((w.toNat / 2 ^ 21 % 2 ^ 10 : Nat) : Int) * 2 := by
  simp only [immJ, toInt_append_of_neZero, toInt_extractLsb'_top (n := 1) (lo := 31) w, toNat_extractLsb'_eq_div_mod,
    BitVec.toNat_zero, pow_one]
  ring

theorem toNat_immUpper_immU (w : Word) : (immUpper (immU w)).toNat = w.toNat / 2 ^ 12 * 2 ^ 12 := by
  have hw : w.toNat / 2 ^ 12 < 2 ^ 20 := Nat.div_lt_of_lt_mul w.isLt
  rw [immUpper, immU, BitVec.toNat_append, BitVec.toNat_zero, Nat.or_zero, Nat.shiftLeft_eq,
    toNat_extractLsb'_eq_div_mod, Nat.mod_eq_of_lt hw]

/-- The sign bit counts -1 or 0. -/
theorem toInt_signBit (w : Word) : w.toInt / 2 ^ 31 = -1 ∨ w.toInt / 2 ^ 31 = 0 := by
  have hlo : -2 ^ 31 ≤ w.toInt := w.le_toInt
  have hhi : w.toInt < 2 ^ 31 := w.toInt_lt
  omega

end Sys2Proof.Machine

open Sys2Proof Sys2Proof.Machine

/-- Settles O5: each immediate is a concatenation of fields whose first one ends at bit 31, so its value is the signed
quotient of the word by that field's place plus the weighted fields below it; the ranges follow since the sign bit
counts -1 or 0. -/
theorem immediateLayouts : Obligations.ImmediateLayouts := by
  intro w
  rw [toInt_imm12, toInt_imm12, toInt_branchOffset, toInt_jumpOffset, toInt_immI, toInt_immS, toInt_immB, toInt_immJ,
    toNat_immUpper_immU]
  have hsign := toInt_signBit w
  refine ⟨rfl, rfl, rfl, ?_, ?_, rfl, rfl, ?_, ?_⟩ <;> omega
end

section
/-!
The integer instructions of 40_integer.md: the encodings of the U-type, I-type, shift and R-type rows, and the value of
every result as a number or bit by bit.
-/

namespace Sys2Proof.Machine

/-! ## Rows of the opcode table by format

A row's mask covers the selecting fields whole and its pattern holds their values. A word of the row is then its
format put together from the word's own operand fields, and the round trip of R202 gives the instruction.
-/

/-- A field the mask covers whole has the pattern's value. -/
theorem extractLsb'_eq_of_and_eq {w mask pattern : Word} (h : w &&& mask = pattern) (lo n : Nat)
    (hmask : mask.extractLsb' lo n = BitVec.allOnes n) : w.extractLsb' lo n = pattern.extractLsb' lo n := by
  rw [← h, BitVec.extractLsb'_and, hmask, BitVec.and_allOnes]

/-- A row holds when the instruction it builds from a word of the row encodes to that word. -/
theorem encodes_of_encode_eq {mask pattern : Word} {build : Word → Instr}
    (h : ∀ w, w &&& mask = pattern → (build w).wellFormed = true ∧ encode (build w) = w) :
    Encodes mask pattern build := by
  intro w hw
  obtain ⟨hwf, henc⟩ := h w hw
  have hdec : decodeWord (encode (build w)) = .ok (build w) := decodeEncodeRoundTrip.1 _ hwf
  rwa [henc] at hdec

section
variable {pattern : Word}

/-- R176: a U-type row is selected by its opcode. -/
theorem encodes_buildU {f : RegIdx → BitVec 20 → Instr}
    (h : ∀ rd imm, (f rd imm).wellFormed = true ∧ encode (f rd imm) = encodeU (opcode pattern) rd imm) :
    Encodes 0x0000007F#32 pattern (buildU f) := by
  refine encodes_of_encode_eq fun w hw => ?_
  obtain ⟨hwf, henc⟩ := h (rdField w) (immU w)
  exact ⟨hwf, henc.trans (encodeU_fields (extractLsb'_eq_of_and_eq hw 0 7 rfl))⟩

/-- R173: an I-type row is selected by its funct3 and opcode. -/
theorem encodes_buildI {f : RegIdx → RegIdx → BitVec 12 → Instr}
    (h : ∀ rd rs1 imm, (f rd rs1 imm).wellFormed = true ∧
      encode (f rd rs1 imm) = encodeI (funct3 pattern) (opcode pattern) rd (regBits rs1) imm) :
    Encodes 0x0000707F#32 pattern (buildI f) := by
  refine encodes_of_encode_eq fun w hw => ?_
  obtain ⟨hwf, henc⟩ := h (rdField w) (rs1Field w) (immI w)
  exact ⟨hwf, henc.trans
    (encodeI_fields (extractLsb'_eq_of_and_eq hw 12 3 rfl) (extractLsb'_eq_of_and_eq hw 0 7 rfl))⟩

/-- R188: a shift-immediate row is an I-type row whose immediate holds the funct7 above the shift amount. -/
theorem encodes_buildShift {f : RegIdx → RegIdx → BitVec 5 → Instr}
    (h : ∀ rd rs1 shamt, (f rd rs1 shamt).wellFormed = true ∧
      encode (f rd rs1 shamt) =
        encodeI (funct3 pattern) (opcode pattern) rd (regBits rs1) (funct7 pattern ++ shamt)) :
    Encodes 0xFE00707F#32 pattern (buildShift f) := by
  refine encodes_of_encode_eq fun w hw => ?_
  obtain ⟨hwf, henc⟩ := h (rdField w) (rs1Field w) (shamtField w)
  exact ⟨hwf, henc.trans
    (encodeI_fields_shift (extractLsb'_eq_of_and_eq hw 25 7 rfl) (extractLsb'_eq_of_and_eq hw 12 3 rfl)
      (extractLsb'_eq_of_and_eq hw 0 7 rfl))⟩

/-- R172: an R-type row is selected by its funct7, funct3 and opcode. -/
theorem encodes_buildR {f : RegIdx → RegIdx → RegIdx → Instr}
    (h : ∀ rd rs1 rs2, (f rd rs1 rs2).wellFormed = true ∧
      encode (f rd rs1 rs2) = encodeR (funct7 pattern) (funct3 pattern) (opcode pattern) rd rs1 rs2) :
    Encodes 0xFE00707F#32 pattern (buildR f) := by
  refine encodes_of_encode_eq fun w hw => ?_
  obtain ⟨hwf, henc⟩ := h (rdField w) (rs1Field w) (rs2Field w)
  exact ⟨hwf, henc.trans
    (encodeR_fields (extractLsb'_eq_of_and_eq hw 25 7 rfl) (extractLsb'_eq_of_and_eq hw 12 3 rfl)
      (extractLsb'_eq_of_and_eq hw 0 7 rfl))⟩

end

/-! ## Operands as numbers and as bits -/

theorem toNat_immUpper (imm : BitVec 20) : (immUpper imm).toNat = imm.toNat * 2 ^ 12 := by
  rw [immUpper, BitVec.toNat_append, BitVec.toNat_zero, Nat.or_zero, Nat.shiftLeft_eq]

theorem immUpper_eq_ofNat (imm : BitVec 20) : immUpper imm = BitVec.ofNat 32 (imm.toNat * 2 ^ 12) := by
  rw [← toNat_immUpper, BitVec.ofNat_toNat, BitVec.setWidth_eq]

/-- R179: bit 11 of the immediate stands in every bit above it. -/
theorem getLsbD_imm12 (imm : BitVec 12) {k : Nat} (hk : k < 32) :
    (imm12 imm).getLsbD k = imm.getLsbD (min k 11) := by
  rw [imm12, BitVec.getLsbD_signExtend, decide_eq_true hk, Bool.true_and]
  split
  case isTrue hlow => rw [Nat.min_eq_left (by omega)]
  case isFalse hhigh => rw [Nat.min_eq_right (by omega), BitVec.msb_eq_getLsbD_last]

/-- R222: the sign-extended immediate read as unsigned. -/
theorem toNat_imm12 (imm : BitVec 12) : ((imm12 imm).toNat : Int) = imm.toInt % 2 ^ 32 := by
  rw [← toInt_imm12, BitVec.toInt_eq_toNat_bmod]
  have hlt : (imm12 imm).toNat < 2 ^ 32 := (imm12 imm).isLt
  exact (Int.bmod_emod.trans (Int.emod_eq_of_lt (by omega) (by omega))).symm

/-- R221: the low five bits count. -/
@[simp] theorem toNat_shiftAmount (v : Word) : (shiftAmount v).toNat = v.toNat % 32 := by
  simp only [shiftAmount, toNat_extractLsb'_eq_div_mod, pow_zero, Nat.div_one, Nat.reducePow]

/-! ## Results as numbers (R220 to R222) -/

theorem add_eq_ofNat (a b : Word) : a + b = BitVec.ofNat 32 (a.toNat + b.toNat) := by
  rw [BitVec.ofNat_add, BitVec.ofNat_toNat, BitVec.ofNat_toNat, BitVec.setWidth_eq, BitVec.setWidth_eq]

theorem add_eq_ofInt (a b : Word) : a + b = BitVec.ofInt 32 (a.toInt + b.toInt) := by
  rw [BitVec.ofInt_add, BitVec.ofInt_toInt, BitVec.ofInt_toInt]

theorem sub_eq_ofInt (a b : Word) : a - b = BitVec.ofInt 32 ((a.toNat : Int) - b.toNat) := by
  apply BitVec.eq_of_toInt_eq
  rw [BitVec.toInt_sub, BitVec.toInt_ofInt, BitVec.toInt_eq_toNat_bmod, BitVec.toInt_eq_toNat_bmod,
    Int.bmod_sub_bmod, Int.sub_bmod_bmod]

theorem shiftLeft_eq_ofNat (v : Word) (n : BitVec 5) :
    shiftLeft v n = BitVec.ofNat 32 (v.toNat * 2 ^ n.toNat) := by
  apply BitVec.eq_of_toNat_eq
  rw [shiftLeft, BitVec.toNat_shiftLeft, Nat.shiftLeft_eq, BitVec.toNat_ofNat]

theorem shiftRightLogical_eq_ofNat (v : Word) (n : BitVec 5) :
    shiftRightLogical v n = BitVec.ofNat 32 (v.toNat / 2 ^ n.toNat) := by
  rw [shiftRightLogical, ← Nat.shiftRight_eq_div_pow, ← BitVec.toNat_ushiftRight, BitVec.ofNat_toNat,
    BitVec.setWidth_eq]

theorem shiftRightArith_eq_ofInt (v : Word) (n : BitVec 5) :
    shiftRightArith v n = BitVec.ofInt 32 (v.toInt / 2 ^ n.toNat) := by
  have hdiv : (shiftRightArith v n).toInt = v.toInt / 2 ^ n.toNat := by
    rw [shiftRightArith, BitVec.toInt_sshiftRight, Int.shiftRight_eq_div_pow, Nat.cast_pow, Nat.cast_ofNat]
  rw [← hdiv, BitVec.ofInt_toInt]

theorem boolWord_lessSigned (a b : Word) :
    boolWord (lessSigned a b) = if a.toInt < b.toInt then 1#32 else 0#32 := by
  simp only [boolWord, lessSigned, decide_eq_true_eq]

theorem boolWord_lessUnsigned (a b : Word) :
    boolWord (lessUnsigned a b) = if a.toNat < b.toNat then 1#32 else 0#32 := by
  simp only [boolWord, lessUnsigned, decide_eq_true_eq]

/-- R228: the comparison of `sltiu`. -/
theorem boolWord_lessUnsigned_imm12 (a : Word) (imm : BitVec 12) :
    boolWord (lessUnsigned a (imm12 imm)) = if (a.toNat : Int) < imm.toInt % 2 ^ 32 then 1#32 else 0#32 := by
  simp only [boolWord_lessUnsigned, ← toNat_imm12, Nat.cast_lt]

/-! ## Completion -/

/-- An instruction whose meaning is `finish` completes with any spelling of the value. -/
theorem writesRd_of_finish_eq {i : Instr} {rd : RegIdx} {v v' : Word} {s : State}
    (h : exec i s = .next (s.finish rd v')) (hv : v' = v) : WritesRd i rd v s :=
  writesRd_of_finish i rd v s (hv ▸ h)

end Sys2Proof.Machine

open Sys2Proof Sys2Proof.Machine

/-- Settles O13: each row is its format put together from the word's fields; each meaning is `finish` with the
model's result, whose number or bits are the rule's. -/
theorem immediateFormResults : Obligations.ImmediateFormResults := by
  refine ⟨⟨encodes_buildU fun _ _ => ⟨rfl, rfl⟩, encodes_buildU fun _ _ => ⟨rfl, rfl⟩,
    encodes_buildI fun _ _ _ => ⟨rfl, rfl⟩, encodes_buildI fun _ _ _ => ⟨rfl, rfl⟩,
    encodes_buildI fun _ _ _ => ⟨rfl, rfl⟩, encodes_buildI fun _ _ _ => ⟨rfl, rfl⟩,
    encodes_buildI fun _ _ _ => ⟨rfl, rfl⟩, encodes_buildI fun _ _ _ => ⟨rfl, rfl⟩,
    encodes_buildShift fun _ _ _ => ⟨rfl, rfl⟩, encodes_buildShift fun _ _ _ => ⟨rfl, rfl⟩,
    encodes_buildShift fun _ _ _ => ⟨rfl, rfl⟩⟩, fun rd rs1 upper imm shamt s => ?_⟩
  refine ⟨writesRd_of_finish_eq (exec_lui ..) (immUpper_eq_ofNat upper),
    writesRd_of_finish_eq (exec_auipc ..) ?auipc,
    writesRd_of_finish_eq (exec_addi ..) ?addi,
    writesRd_of_finish_eq (exec_slti ..) ?slti,
    writesRd_of_finish_eq (exec_sltiu ..) (boolWord_lessUnsigned_imm12 _ imm),
    ⟨_, writesRd_of_finish _ _ _ _ (exec_xori ..), fun k hk => ?xori⟩,
    ⟨_, writesRd_of_finish _ _ _ _ (exec_ori ..), fun k hk => ?ori⟩,
    ⟨_, writesRd_of_finish _ _ _ _ (exec_andi ..), fun k hk => ?andi⟩,
    writesRd_of_finish_eq (exec_slli ..) (shiftLeft_eq_ofNat _ shamt),
    writesRd_of_finish_eq (exec_srli ..) (shiftRightLogical_eq_ofNat _ shamt),
    writesRd_of_finish_eq (exec_srai ..) (shiftRightArith_eq_ofInt _ shamt)⟩
  case auipc => rw [add_eq_ofNat, toNat_immUpper]
  case addi => rw [add_eq_ofInt, toInt_imm12]
  case slti => rw [boolWord_lessSigned, toInt_imm12]
  case xori => rw [BitVec.getLsbD_xor, getLsbD_imm12 imm hk]
  case ori => rw [BitVec.getLsbD_or, getLsbD_imm12 imm hk]
  case andi => rw [BitVec.getLsbD_and, getLsbD_imm12 imm hk]

/-- Settles O14: each row is its format put together from the word's fields; each meaning is `finish` with the
model's result, whose number or bits are the rule's, the shift amount being rs2 modulo 32. -/
theorem registerRegisterResults : Obligations.RegisterRegisterResults := by
  refine ⟨⟨encodes_buildR fun _ _ _ => ⟨rfl, rfl⟩, encodes_buildR fun _ _ _ => ⟨rfl, rfl⟩,
    encodes_buildR fun _ _ _ => ⟨rfl, rfl⟩, encodes_buildR fun _ _ _ => ⟨rfl, rfl⟩,
    encodes_buildR fun _ _ _ => ⟨rfl, rfl⟩, encodes_buildR fun _ _ _ => ⟨rfl, rfl⟩,
    encodes_buildR fun _ _ _ => ⟨rfl, rfl⟩, encodes_buildR fun _ _ _ => ⟨rfl, rfl⟩,
    encodes_buildR fun _ _ _ => ⟨rfl, rfl⟩, encodes_buildR fun _ _ _ => ⟨rfl, rfl⟩⟩, fun rd rs1 rs2 s => ?_⟩
  refine ⟨writesRd_of_finish_eq (exec_add ..) (add_eq_ofNat _ _),
    writesRd_of_finish_eq (exec_sub ..) (sub_eq_ofInt _ _),
    writesRd_of_finish_eq (exec_sll ..) ?sll,
    writesRd_of_finish_eq (exec_slt ..) (boolWord_lessSigned _ _),
    writesRd_of_finish_eq (exec_sltu ..) (boolWord_lessUnsigned _ _),
    writesRd_of_finish_eq (exec_srl ..) ?srl,
    writesRd_of_finish_eq (exec_sra ..) ?sra,
    ⟨_, writesRd_of_finish _ _ _ _ (exec_xor ..), fun _ _ => BitVec.getLsbD_xor⟩,
    ⟨_, writesRd_of_finish _ _ _ _ (exec_or ..), fun _ _ => BitVec.getLsbD_or⟩,
    ⟨_, writesRd_of_finish _ _ _ _ (exec_and ..), fun _ _ => BitVec.getLsbD_and⟩⟩
  case sll => rw [shiftLeft_eq_ofNat, toNat_shiftAmount]
  case srl => rw [shiftRightLogical_eq_ofNat, toNat_shiftAmount]
  case sra => rw [shiftRightArith_eq_ofInt, toNat_shiftAmount]
end

section
/-!
The loads, stores and fences of 42_loadstore.md: the S-type and Fence-type rows, the numbers of loaded values, and what
a load and a store do in the terms of the loops of R103 and R104.
-/

namespace Sys2Proof.Machine

/-! ## Rows of the opcode table -/

/-- R174: an S-type row is selected by its funct3; its opcode is STORE. -/
theorem encodes_buildS {pattern : Word} {f : RegIdx → RegIdx → BitVec 12 → Instr} (ho : opcode pattern = 0b0100011#7)
    (h : ∀ rs1 rs2 imm, (f rs1 rs2 imm).wellFormed = true ∧
      encode (f rs1 rs2 imm) = encodeS (funct3 pattern) rs1 rs2 imm) :
    Encodes 0x0000707F#32 pattern (buildS f) := by
  refine encodes_of_encode_eq fun w hw => ?_
  obtain ⟨hwf, henc⟩ := h (rs1Field w) (rs2Field w) (immS w)
  exact ⟨hwf, henc.trans
    (encodeS_fields (extractLsb'_eq_of_and_eq hw 12 3 rfl) ((extractLsb'_eq_of_and_eq hw 0 7 rfl).trans ho))⟩

/-- R178, R196: a Fence-type row is selected by its opcode and funct3 alone, whatever the other fields. -/
theorem encodes_fence {pattern : Word} {i : Instr} (ho : opcode pattern = 0b0001111#7)
    (h : ∀ w, funct3 w = funct3 pattern → decodeMiscMem w = some i) :
    Encodes 0x0000707F#32 pattern (fun _ => i) := by
  intro w hw
  have hop : opcode w = 0b0001111#7 := (extractLsb'_eq_of_and_eq hw 0 7 rfl).trans ho
  rw [decodeWord_eq_ok_iff, decodeMap, hop]
  exact h w (extractLsb'_eq_of_and_eq hw 12 3 rfl)

/-! ## Addresses and loaded values as numbers (R290, R292) -/

theorem effectiveAddress_eq_ofInt (rs1 : RegIdx) (imm : BitVec 12) (s : State) :
    effectiveAddress rs1 imm s = BitVec.ofInt 32 ((s.readReg rs1).toInt + imm.toInt) := by
  rw [effectiveAddress, add_eq_ofInt, toInt_imm12]

theorem signExtend_ofNat_of_lt {k n : Nat} (hn : n < 2 ^ k) :
    (BitVec.ofNat k n).signExtend 32 = BitVec.ofInt 32 (if 2 * n < 2 ^ k then n else (n : Int) - (2 ^ k : Nat)) := by
  rw [BitVec.signExtend, BitVec.toInt_eq_toNat_cond, BitVec.toNat_ofNat, Nat.mod_eq_of_lt hn]

theorem signExtend8_ofNat {n : Nat} (hn : n < 256) :
    signExtend8 (BitVec.ofNat 32 n) = BitVec.ofInt 32 (if n < 128 then n else (n : Int) - 256) := by
  have hsign : 2 * n < 2 ^ 8 ↔ n < 128 := by omega
  rw [signExtend8, BitVec.setWidth_ofNat_of_le (by decide), signExtend_ofNat_of_lt (k := 8) hn]
  simp only [hsign]
  rfl

theorem signExtend16_ofNat {n : Nat} (hn : n < 65536) :
    signExtend16 (BitVec.ofNat 32 n) = BitVec.ofInt 32 (if n < 32768 then n else (n : Int) - 65536) := by
  have hsign : 2 * n < 2 ^ 16 ↔ n < 32768 := by omega
  rw [signExtend16, BitVec.setWidth_ofNat_of_le (by decide), signExtend_ofNat_of_lt (k := 16) hn]
  simp only [hsign]
  rfl

theorem zeroExtend8_ofNat {n : Nat} (hn : n < 256) : zeroExtend8 (BitVec.ofNat 32 n) = BitVec.ofNat 32 n := by
  rw [zeroExtend8, BitVec.setWidth_ofNat_of_le (by decide), BitVec.setWidth_ofNat_of_le_of_lt (by decide) hn]

theorem zeroExtend16_ofNat {n : Nat} (hn : n < 65536) : zeroExtend16 (BitVec.ofNat 32 n) = BitVec.ofNat 32 n := by
  rw [zeroExtend16, BitVec.setWidth_ofNat_of_le (by decide), BitVec.setWidth_ofNat_of_le_of_lt (by decide) hn]

/-- The bytes of a read sequence are a number below `256 ^ n` (R103). -/
theorem leNat_readBytes_lt (n : Nat) (a : Word) (s : State) : leNat (readBytes n a s).1 < 256 ^ n := by
  induction n generalizing a s with
  | zero => exact Nat.one_pos
  | succ n ih =>
    rw [readBytes_succ, leNat, pow_succ]
    have hbyte : (busReadByte a s).1.toNat < 256 := (busReadByte a s).1.isLt
    have hrest := ih (a + 1#32) (busReadByte a s).2
    omega

/-! ## What an access leaves of pc, and the end of an instruction after it -/

theorem memRead_pc (n : Nat) (a : Word) (s : State) : (memRead n a s).2.pc = s.pc := by
  obtain ⟨u, p, h⟩ := memRead_cases n a s
  rw [h]

theorem memWrite_pc (n : Nat) (a v : Word) (s : State) : (memWrite n a v s).pc = s.pc := by
  obtain ⟨m, u, c, p, f, h⟩ := memWrite_cases n a v s
  rw [h]

/-- `finish` after an access that kept the registers writes `rd` of the registers before it. -/
theorem finish_regWrite_of_regs_eq {s t : State} (h : t.regs = s.regs) (rd : RegIdx) (v : Word) :
    RegWrite rd v s (t.finish rd v) := by
  intro r
  rw [readReg_finish, readReg_congr s t h]

/-! ## Completion -/

/-- A load completes with any spelling of its address and of its extension (R103: the bytes in ascending order). -/
theorem loadResult_of_loadWith {i : Instr} {n : Nat} {ext : Word → Word} {ext' : Nat → Word} {rd rs1 : RegIdx}
    {imm : BitVec 12} {ea : Word} {s : State} (h : exec i s = loadWith n ext rd rs1 imm s)
    (hea : effectiveAddress rs1 imm s = ea) (hext : ∀ m < 256 ^ n, ext (BitVec.ofNat 32 m) = ext' m) :
    LoadResult i n rd ea ext' s := by
  have hread := memRead_eq_readBytes n ea s
  have hregs : (readBytes n ea s).2.regs = s.regs := by rw [← memRead_regs n ea s, hread]
  have hpc : (readBytes n ea s).2.pc = s.pc := by rw [← memRead_pc n ea s, hread]
  refine ⟨(readBytes n ea s).2.finish rd (ext' (leNat (readBytes n ea s).1)), ?_,
    finish_regWrite_of_regs_eq hregs rd _, ?_, finish_same _ rd _⟩
  · rw [h, loadWith, hea, hread, ← hext _ (leNat_readBytes_lt n ea s)]
  · rw [finish_pc, hpc]

/-- A store completes with any spelling of its address (R104: the bytes in ascending order). -/
theorem storeResult_of_storeBytes {i : Instr} {n : Nat} {rs1 rs2 : RegIdx} {imm : BitVec 12} {ea : Word} {s : State}
    (h : exec i s = storeBytes n rs1 rs2 imm s) (hea : effectiveAddress rs1 imm s = ea) :
    StoreResult i n ea (s.readReg rs2) s := by
  refine ⟨(memWrite n ea (s.readReg rs2) s).advance, ?_, fun r => ?_, ?_, ?_⟩
  · rw [h, storeBytes, hea]
  · rw [advance_readReg, readReg_congr s _ (memWrite_regs n ea _ s)]
  · rw [advance_pc, memWrite_pc]
  · rw [← memWrite_eq_writeBytes]
    exact setPc_same _ _

/-- An instruction whose meaning is `advance` sets pc to `pc + 4`, as a number modulo `2 ^ 32` (R34). -/
theorem setsPcOnly_of_advance {i : Instr} {s : State} (h : exec i s = .next s.advance) :
    SetsPcOnly i (BitVec.ofNat 32 (s.pc.toNat + 4)) s := by
  have hpc : s.pc + 4#32 = BitVec.ofNat 32 (s.pc.toNat + 4) := add_eq_ofNat s.pc 4#32
  rw [SetsPcOnly, h, ← hpc]
  rfl

end Sys2Proof.Machine

open Sys2Proof Sys2Proof.Machine

/-- Settles O17: each row is its format put together from the word's fields; each meaning is `loadWith`, whose read is
the loop of R103 and whose extension is the rule's number on values of as many bytes as were read. -/
theorem loadResults : Obligations.LoadResults := by
  refine ⟨⟨encodes_buildI fun _ _ _ => ⟨rfl, rfl⟩, encodes_buildI fun _ _ _ => ⟨rfl, rfl⟩,
    encodes_buildI fun _ _ _ => ⟨rfl, rfl⟩, encodes_buildI fun _ _ _ => ⟨rfl, rfl⟩,
    encodes_buildI fun _ _ _ => ⟨rfl, rfl⟩⟩, fun rd rs1 imm s => ?_⟩
  have hea := effectiveAddress_eq_ofInt rs1 imm s
  exact ⟨loadResult_of_loadWith (exec_lb ..) hea fun _ => signExtend8_ofNat,
    loadResult_of_loadWith (exec_lh ..) hea fun _ => signExtend16_ofNat,
    loadResult_of_loadWith (exec_lw ..) hea fun _ _ => rfl,
    loadResult_of_loadWith (exec_lbu ..) hea fun _ => zeroExtend8_ofNat,
    loadResult_of_loadWith (exec_lhu ..) hea fun _ => zeroExtend16_ofNat⟩

/-- Settles O18: each row is its format put together from the word's fields; each meaning is `storeBytes`, whose write
is the loop of R104. -/
theorem storeResults : Obligations.StoreResults := by
  refine ⟨⟨encodes_buildS rfl fun _ _ _ => ⟨rfl, rfl⟩, encodes_buildS rfl fun _ _ _ => ⟨rfl, rfl⟩,
    encodes_buildS rfl fun _ _ _ => ⟨rfl, rfl⟩⟩, fun rs1 rs2 imm s => ?_⟩
  have hea := effectiveAddress_eq_ofInt rs1 imm s
  exact ⟨storeResult_of_storeBytes (exec_sb ..) hea, storeResult_of_storeBytes (exec_sh ..) hea,
    storeResult_of_storeBytes (exec_sw ..) hea⟩

/-- Settles O19: the opcode and funct3 select the row whatever the other fields, and the meaning is `advance`. -/
theorem fenceResults : Obligations.FenceResults := by
  refine ⟨encodes_fence rfl fun w h3 => ?fence, encodes_fence rfl fun w h3 => ?fenceI,
    fun s => ⟨setsPcOnly_of_advance (exec_fence s), setsPcOnly_of_advance (exec_fenceI s)⟩⟩
  case fence => rw [decodeMiscMem, h3]; rfl
  case fenceI => rw [decodeMiscMem, h3]; rfl
end

section
/-!
The products of 43_muldiv.md. The model computes them as exact integers and cuts a word out of them; the rules compute
them modulo a power of 2 (R312) or in 64 bits (R313, R315).
-/

namespace Sys2Proof.Machine

/-! ## Words of an exact integer and of its 64-bit form -/

/-- The high word needs no more of an exact integer than its low 64 bits. -/
theorem highWord_eq_extractLsb' (i : Int) : highWord i = (BitVec.ofInt 64 i).extractLsb' 32 32 := by
  apply BitVec.eq_of_toNat_eq
  rw [highWord, BitVec.extractLsb'_toNat, Nat.shiftRight_eq_div_pow, BitVec.toNat_ofInt, BitVec.toNat_ofInt]
  omega

/-- The high word of an exact product is that of the product of the two factors in 64 bits. -/
theorem highWord_mul (i j : Int) :
    highWord (i * j) = (BitVec.ofInt 64 i * BitVec.ofInt 64 j).extractLsb' 32 32 := by
  rw [highWord_eq_extractLsb', BitVec.ofInt_mul]

theorem setWidth64_eq_ofInt (v : Word) : v.setWidth 64 = BitVec.ofInt 64 v.toNat := by
  rw [BitVec.ofInt_natCast, BitVec.ofNat_toNat]

/-! ## Products of registers (R312, R313, R315) -/

/-- The low word does not depend on the signs: modulo `2 ^ 32` both readings of an operand are the operand itself. -/
theorem lowWord_mul_toInt (a b : Word) : lowWord (a.toInt * b.toInt) = BitVec.ofNat 32 (a.toNat * b.toNat) :=
  calc lowWord (a.toInt * b.toInt)
    _ = a * b := by rw [lowWord, BitVec.ofInt_mul, BitVec.ofInt_toInt, BitVec.ofInt_toInt]
    _ = BitVec.ofNat 32 (a.toNat * b.toNat) := by
      rw [BitVec.ofNat_mul, BitVec.ofNat_toNat, BitVec.ofNat_toNat, BitVec.setWidth_eq, BitVec.setWidth_eq]

theorem highWord_mul_toInt (a b : Word) :
    highWord (a.toInt * b.toInt) = (a.signExtend 64 * b.signExtend 64).extractLsb' 32 32 := by
  rw [highWord_mul, BitVec.signExtend, BitVec.signExtend]

theorem highWord_mul_toNat (a b : Word) :
    highWord ((a.toNat : Int) * (b.toNat : Int)) = (a.setWidth 64 * b.setWidth 64).extractLsb' 32 32 := by
  rw [highWord_mul, setWidth64_eq_ofInt, setWidth64_eq_ofInt]

end Sys2Proof.Machine

open Sys2Proof Sys2Proof.Machine

/-- Settles O25: each row is its format put together from the word's fields; each meaning is `finish` with a word of
the exact product, whose high word is already that of the product of the operands extended to 64 bits. -/
theorem multiplyResults : Obligations.MultiplyResults := by
  refine ⟨⟨encodes_buildR fun _ _ _ => ⟨rfl, rfl⟩, encodes_buildR fun _ _ _ => ⟨rfl, rfl⟩,
    encodes_buildR fun _ _ _ => ⟨rfl, rfl⟩⟩, fun rd rs1 rs2 s => ?_⟩
  exact ⟨writesRd_of_finish_eq (exec_mul ..) (lowWord_mul_toInt _ _),
    writesRd_of_finish_eq (exec_mulh ..) (highWord_mul_toInt _ _),
    writesRd_of_finish_eq (exec_mulhu ..) (highWord_mul_toNat _ _)⟩
end

section
/-!
The decode map of 30_encoding.md R185 to R196 as the table of spec/opcode_table.json: a row of each format holds, every
instruction's word matches a row, and the operands of an instruction lie in the bits of `usedBits`.
-/

namespace Sys2Proof.Machine

/-! ## Rows of the opcode table by format -/

section
variable {pattern : Word}

/-- R175: a B-type row is selected by its funct3; its opcode is BRANCH. -/
theorem encodes_buildB {f : RegIdx → RegIdx → BitVec 13 → Instr} (ho : opcode pattern = 0b1100011#7)
    (h : ∀ rs1 rs2 off, (f rs1 rs2 off).wellFormed = evenBranchOffset off ∧
      encode (f rs1 rs2 off) = encodeB (funct3 pattern) rs1 rs2 off) :
    Encodes 0x0000707F#32 pattern (buildB f) := by
  refine encodes_of_encode_eq fun w hw => ?_
  obtain ⟨hwf, henc⟩ := h (rs1Field w) (rs2Field w) (immB w)
  exact ⟨hwf.trans (evenBranchOffset_immB w), henc.trans
    (encodeB_fields (extractLsb'_eq_of_and_eq hw 12 3 rfl) ((extractLsb'_eq_of_and_eq hw 0 7 rfl).trans ho))⟩

/-- R177: the row of JAL is selected by its opcode. -/
theorem encodes_jal : Encodes 0x0000007F#32 0x0000006F#32 (fun w => .jal (rdField w) (immJ w)) :=
  encodes_of_encode_eq fun w hw => ⟨evenJumpOffset_immJ w, encodeJ_fields (extractLsb'_eq_of_and_eq hw 0 7 rfl)⟩

/-- R173: the row of JALR. -/
theorem encodes_jalr : Encodes 0x0000707F#32 0x00000067#32 (buildI .jalr) := encodes_buildI fun _ _ _ => ⟨rfl, rfl⟩

/-- R171: a register CSR form is an I-type row whose immediate is the CSR address. -/
theorem encodes_buildCsr {f : RegIdx → CsrAddr → RegIdx → Instr}
    (h : ∀ rd c rs1, (f rd c rs1).wellFormed = true ∧
      encode (f rd c rs1) = encodeI (funct3 pattern) (opcode pattern) rd (regBits rs1) c) :
    Encodes 0x0000707F#32 pattern (buildCsr f) :=
  encodes_buildI (f := fun rd rs1 c => f rd c rs1) fun rd rs1 c => h rd c rs1

/-- R171: an immediate CSR form holds its immediate in the rs1 field. -/
theorem encodes_buildCsrImm {f : RegIdx → CsrAddr → BitVec 5 → Instr}
    (h : ∀ rd c z, (f rd c z).wellFormed = true ∧
      encode (f rd c z) = encodeI (funct3 pattern) (opcode pattern) rd z c) :
    Encodes 0x0000707F#32 pattern (buildCsrImm f) := by
  refine encodes_of_encode_eq fun w hw => ?_
  obtain ⟨hwf, henc⟩ := h (rdField w) (csrField w) (zimmField w)
  exact ⟨hwf, henc.trans
    (encodeI_fields (extractLsb'_eq_of_and_eq hw 12 3 rfl) (extractLsb'_eq_of_and_eq hw 0 7 rfl))⟩

/-- R193, R196: an AMO row is selected by its funct5, funct3 and opcode; aq and rl do not matter. -/
theorem encodes_amo {build : Word → Instr} (ho : opcode pattern = 0b0101111#7) (h3 : funct3 pattern = 2#3)
    (h : ∀ w, funct3 w = 2#3 → funct5 w = funct5 pattern → decodeAmo w = some (build w)) :
    Encodes 0xF800707F#32 pattern build := by
  intro w hw
  have hop : opcode w = 0b0101111#7 := (extractLsb'_eq_of_and_eq hw 0 7 rfl).trans ho
  rw [decodeWord_eq_ok_iff, decodeMap, hop]
  exact h w ((extractLsb'_eq_of_and_eq hw 12 3 rfl).trans h3) (extractLsb'_eq_of_and_eq hw 27 5 rfl)

/-- R192, R196: a row of the SYSTEM group without operands is selected by its funct12, funct3 and opcode. -/
theorem encodes_system {i : Instr} (ho : opcode pattern = 0b1110011#7) (h3 : funct3 pattern = 0#3)
    (h : ∀ w, funct3 w = 0#3 → funct12 w = funct12 pattern → decodeSystem w = some i) :
    Encodes 0xFFF0707F#32 pattern (fun _ => i) := by
  intro w hw
  have hop : opcode w = 0b1110011#7 := (extractLsb'_eq_of_and_eq hw 0 7 rfl).trans ho
  rw [decodeWord_eq_ok_iff, decodeMap, hop]
  exact h w ((extractLsb'_eq_of_and_eq hw 12 3 rfl).trans h3) (extractLsb'_eq_of_and_eq hw 20 12 rfl)

end

/-! ## The rows of R190 and R192 to R194 -/

/-- The six branches. -/
theorem encodes_branches :
    Encodes 0x0000707F#32 0x00000063#32 (buildB .beq) ∧ Encodes 0x0000707F#32 0x00001063#32 (buildB .bne) ∧
    Encodes 0x0000707F#32 0x00004063#32 (buildB .blt) ∧ Encodes 0x0000707F#32 0x00005063#32 (buildB .bge) ∧
    Encodes 0x0000707F#32 0x00006063#32 (buildB .bltu) ∧ Encodes 0x0000707F#32 0x00007063#32 (buildB .bgeu) :=
  ⟨encodes_buildB rfl fun _ _ _ => ⟨rfl, rfl⟩, encodes_buildB rfl fun _ _ _ => ⟨rfl, rfl⟩,
    encodes_buildB rfl fun _ _ _ => ⟨rfl, rfl⟩, encodes_buildB rfl fun _ _ _ => ⟨rfl, rfl⟩,
    encodes_buildB rfl fun _ _ _ => ⟨rfl, rfl⟩, encodes_buildB rfl fun _ _ _ => ⟨rfl, rfl⟩⟩

/-- DIV, DIVU, REM and REMU. -/
theorem encodes_divisions :
    Encodes 0xFE00707F#32 0x02004033#32 (buildR .div) ∧ Encodes 0xFE00707F#32 0x02005033#32 (buildR .divu) ∧
    Encodes 0xFE00707F#32 0x02006033#32 (buildR .rem) ∧ Encodes 0xFE00707F#32 0x02007033#32 (buildR .remu) :=
  ⟨encodes_buildR fun _ _ _ => ⟨rfl, rfl⟩, encodes_buildR fun _ _ _ => ⟨rfl, rfl⟩,
    encodes_buildR fun _ _ _ => ⟨rfl, rfl⟩, encodes_buildR fun _ _ _ => ⟨rfl, rfl⟩⟩

/-- MULHSU. -/
theorem encodes_mulhsu : Encodes 0xFE00707F#32 0x02002033#32 (buildR .mulhsu) := encodes_buildR fun _ _ _ => ⟨rfl, rfl⟩

/-- The operands of `lr.w`, whose rs2 field is ignored. -/
theorem encodes_lr : Encodes 0xF800707F#32 0x1000202F#32 (fun w => .lrW (rdField w) (rs1Field w)) :=
  encodes_amo rfl rfl fun w h3 h5 => by rw [decodeAmo, h3, h5]; rfl

theorem encodes_sc : Encodes 0xF800707F#32 0x1800202F#32 (buildR .scW) :=
  encodes_amo rfl rfl fun w h3 h5 => by rw [decodeAmo, h3, h5]; rfl

/-- The nine AMOs. -/
theorem encodes_amos :
    Encodes 0xF800707F#32 0x0800202F#32 (buildR .amoswapW) ∧ Encodes 0xF800707F#32 0x0000202F#32 (buildR .amoaddW) ∧
    Encodes 0xF800707F#32 0x2000202F#32 (buildR .amoxorW) ∧ Encodes 0xF800707F#32 0x6000202F#32 (buildR .amoandW) ∧
    Encodes 0xF800707F#32 0x4000202F#32 (buildR .amoorW) ∧ Encodes 0xF800707F#32 0x8000202F#32 (buildR .amominW) ∧
    Encodes 0xF800707F#32 0xA000202F#32 (buildR .amomaxW) ∧ Encodes 0xF800707F#32 0xC000202F#32 (buildR .amominuW) ∧
    Encodes 0xF800707F#32 0xE000202F#32 (buildR .amomaxuW) := by
  refine ⟨encodes_amo rfl rfl fun w h3 h5 => ?_, encodes_amo rfl rfl fun w h3 h5 => ?_,
    encodes_amo rfl rfl fun w h3 h5 => ?_, encodes_amo rfl rfl fun w h3 h5 => ?_,
    encodes_amo rfl rfl fun w h3 h5 => ?_, encodes_amo rfl rfl fun w h3 h5 => ?_,
    encodes_amo rfl rfl fun w h3 h5 => ?_, encodes_amo rfl rfl fun w h3 h5 => ?_,
    encodes_amo rfl rfl fun w h3 h5 => ?_⟩
  all_goals rw [decodeAmo, h3, h5]; rfl

/-- The register CSR forms. -/
theorem encodes_csr :
    Encodes 0x0000707F#32 0x00001073#32 (buildCsr .csrrw) ∧ Encodes 0x0000707F#32 0x00002073#32 (buildCsr .csrrs) ∧
    Encodes 0x0000707F#32 0x00003073#32 (buildCsr .csrrc) :=
  ⟨encodes_buildCsr fun _ _ _ => ⟨rfl, rfl⟩, encodes_buildCsr fun _ _ _ => ⟨rfl, rfl⟩,
    encodes_buildCsr fun _ _ _ => ⟨rfl, rfl⟩⟩

/-- The immediate CSR forms. -/
theorem encodes_csrImm :
    Encodes 0x0000707F#32 0x00005073#32 (buildCsrImm .csrrwi) ∧
    Encodes 0x0000707F#32 0x00006073#32 (buildCsrImm .csrrsi) ∧
    Encodes 0x0000707F#32 0x00007073#32 (buildCsrImm .csrrci) :=
  ⟨encodes_buildCsrImm fun _ _ _ => ⟨rfl, rfl⟩, encodes_buildCsrImm fun _ _ _ => ⟨rfl, rfl⟩,
    encodes_buildCsrImm fun _ _ _ => ⟨rfl, rfl⟩⟩

theorem encodes_ecall : Encodes 0xFFF0707F#32 0x00000073#32 (fun _ => .ecall) :=
  encodes_system rfl rfl fun w h3 h12 => by rw [decodeSystem, h3, h12]; rfl

theorem encodes_ebreak : Encodes 0xFFF0707F#32 0x00100073#32 (fun _ => .ebreak) :=
  encodes_system rfl rfl fun w h3 h12 => by rw [decodeSystem, h3, h12]; rfl

theorem encodes_mret : Encodes 0xFFF0707F#32 0x30200073#32 (fun _ => .mret) :=
  encodes_system rfl rfl fun w h3 h12 => by rw [decodeSystem, h3, h12]; rfl

theorem encodes_sret : Encodes 0xFFF0707F#32 0x10200073#32 (fun _ => .sret) :=
  encodes_system rfl rfl fun w h3 h12 => by rw [decodeSystem, h3, h12]; rfl

theorem encodes_wfi : Encodes 0xFFF0707F#32 0x10500073#32 (fun _ => .wfi) :=
  encodes_system rfl rfl fun w h3 h12 => by rw [decodeSystem, h3, h12]; rfl

/-! ## The 69 rows hold -/

theorem encodes_opcodeRowsInteger : ∀ row ∈ opcodeRowsInteger, Encodes row.mask row.pattern row.build := by
  obtain ⟨h1, h2, h3, h4, h5, h6, h7, h8, h9, h10, h11⟩ := immediateFormResults.1
  obtain ⟨r1, r2, r3, r4, r5, r6, r7, r8, r9, r10⟩ := registerRegisterResults.1
  obtain ⟨b1, b2, b3, b4, b5, b6⟩ := encodes_branches
  simp only [opcodeRowsInteger, List.forall_mem_append, List.forall_mem_cons]
  exact ⟨⟨⟨h1, h2, h3, h4, h5, h6, h7, h8, h9, h10, h11, List.forall_mem_nil _⟩,
      ⟨r1, r2, r3, r4, r5, r6, r7, r8, r9, r10, List.forall_mem_nil _⟩⟩,
    ⟨encodes_jal, encodes_jalr, b1, b2, b3, b4, b5, b6, List.forall_mem_nil _⟩⟩

theorem encodes_opcodeRowsMemory : ∀ row ∈ opcodeRowsMemory, Encodes row.mask row.pattern row.build := by
  obtain ⟨l1, l2, l3, l4, l5⟩ := loadResults.1
  obtain ⟨s1, s2, s3⟩ := storeResults.1
  obtain ⟨f1, f2, -⟩ := fenceResults
  obtain ⟨m1, m2, m3⟩ := multiplyResults.1
  obtain ⟨d1, d2, d3, d4⟩ := encodes_divisions
  simp only [opcodeRowsMemory, List.forall_mem_append, List.forall_mem_cons]
  exact ⟨⟨l1, l2, l3, l4, l5, s1, s2, s3, f1, f2, List.forall_mem_nil _⟩,
    ⟨m1, m2, encodes_mulhsu, m3, d1, d2, d3, d4, List.forall_mem_nil _⟩⟩

theorem encodes_opcodeRowsSystem : ∀ row ∈ opcodeRowsSystem, Encodes row.mask row.pattern row.build := by
  obtain ⟨a1, a2, a3, a4, a5, a6, a7, a8, a9⟩ := encodes_amos
  obtain ⟨c1, c2, c3⟩ := encodes_csr
  obtain ⟨i1, i2, i3⟩ := encodes_csrImm
  simp only [opcodeRowsSystem, List.forall_mem_append, List.forall_mem_cons]
  exact ⟨⟨encodes_lr, encodes_sc, a1, a2, a3, a4, a5, a6, a7, a8, a9, List.forall_mem_nil _⟩,
    ⟨c1, c2, c3, i1, i2, i3, encodes_ecall, encodes_ebreak, encodes_mret, encodes_sret, encodes_wfi,
      List.forall_mem_nil _⟩⟩

/-! ## Every instruction's word matches a row -/

/-- The mask of an instruction's row: the fields that select it. -/
def rowMask : Instr → Word
  | .lui _ _ | .auipc _ _ | .jal _ _ => 0x0000007F#32
  | .slli _ _ _ | .srli _ _ _ | .srai _ _ _ => 0xFE00707F#32
  | .add _ _ _ | .sub _ _ _ | .sll _ _ _ | .slt _ _ _ | .sltu _ _ _ | .xor _ _ _ | .srl _ _ _ | .sra _ _ _
  | .or _ _ _ | .and _ _ _ => 0xFE00707F#32
  | .mul _ _ _ | .mulh _ _ _ | .mulhsu _ _ _ | .mulhu _ _ _ | .div _ _ _ | .divu _ _ _ | .rem _ _ _
  | .remu _ _ _ => 0xFE00707F#32
  | .lrW _ _ | .scW _ _ _ | .amoswapW _ _ _ | .amoaddW _ _ _ | .amoxorW _ _ _ | .amoandW _ _ _ | .amoorW _ _ _
  | .amominW _ _ _ | .amomaxW _ _ _ | .amominuW _ _ _ | .amomaxuW _ _ _ => 0xF800707F#32
  | .ecall | .ebreak | .mret | .sret | .wfi => 0xFFF0707F#32
  | _ => 0x0000707F#32

/-- Two words that agree on the bits of a mask are cut alike by it. -/
theorem and_eq_of_bits {v w mask : Word} (h : ∀ k < 32, mask.getLsbD k = true → v.getLsbD k = w.getLsbD k) :
    v &&& mask = w &&& mask := by
  apply BitVec.eq_of_getLsbD_eq
  intro k hk
  rw [BitVec.getLsbD_and, BitVec.getLsbD_and]
  cases hm : mask.getLsbD k
  · rw [Bool.and_false, Bool.and_false]
  · rw [h k hk hm]

/-- A field that two words share, bit by bit. -/
theorem getLsbD_eq_of_extractLsb'_eq {v w : Word} {lo n k : Nat} (h : v.extractLsb' lo n = w.extractLsb' lo n)
    (hlo : lo ≤ k) (hhi : k < lo + n) : v.getLsbD k = w.getLsbD k := by
  have hbit := congrArg (fun x : BitVec n => x.getLsbD (k - lo)) h
  have hn : k - lo < n := by omega
  simpa only [BitVec.getLsbD_extractLsb', hn, decide_true, Bool.true_and, Nat.add_sub_cancel' hlo] using hbit

/-- Two words with the same opcode are cut alike by the mask of the opcode. -/
theorem and_opcode_mask {v w : Word} (ho : opcode v = opcode w) : v &&& 0x0000007F#32 = w &&& 0x0000007F#32 := by
  have hmask : ∀ k < 32, (0x0000007F#32).getLsbD k = true → k < 7 := by decide
  refine and_eq_of_bits fun k hk hm => ?_
  exact getLsbD_eq_of_extractLsb'_eq ho (Nat.zero_le k) (by have := hmask k hk hm; omega)

/-- Two words with the same opcode and funct3 are cut alike by the mask of these fields. -/
theorem and_funct3_mask {v w : Word} (ho : opcode v = opcode w) (h3 : funct3 v = funct3 w) :
    v &&& 0x0000707F#32 = w &&& 0x0000707F#32 := by
  have hmask : ∀ k < 32, (0x0000707F#32).getLsbD k = true → k < 7 ∨ 12 ≤ k ∧ k < 15 := by decide
  refine and_eq_of_bits fun k hk hm => ?_
  rcases hmask k hk hm with hlow | ⟨hlo, hhi⟩
  · exact getLsbD_eq_of_extractLsb'_eq ho (Nat.zero_le k) (by omega)
  · exact getLsbD_eq_of_extractLsb'_eq h3 hlo (by omega)

/-- Two words that a mask of opcode and funct3 cuts alike and that agree from bit `lo` up are cut alike by the mask of
all three fields. -/
theorem and_high_mask {v w mask : Word} {lo n : Nat} (ho : opcode v = opcode w) (h3 : funct3 v = funct3 w)
    (hhigh : v.extractLsb' lo n = w.extractLsb' lo n)
    (hmask : ∀ k < 32, mask.getLsbD k = true → (0x0000707F#32).getLsbD k = true ∨ lo ≤ k ∧ k < lo + n) :
    v &&& mask = w &&& mask := by
  refine and_eq_of_bits fun k hk hm => ?_
  rcases hmask k hk hm with hlow | ⟨hlo, hhi⟩
  · have hbit := congrArg (fun x : Word => x.getLsbD k) (and_funct3_mask ho h3)
    simpa only [BitVec.getLsbD_and, hlow, Bool.and_true] using hbit
  · exact getLsbD_eq_of_extractLsb'_eq hhigh hlo hhi

/-- A word matches a row that has the given mask. -/
def MatchesRow (mask w : Word) : Prop := ∃ row ∈ opcodeRows, row.mask = mask ∧ w &&& mask = row.pattern

/-- A match is a fact about the bits of the mask: the operands may be taken to be 0. -/
theorem matchesRow_of_and_eq {mask v w : Word} (hw : MatchesRow mask w) (h : v &&& mask = w &&& mask) :
    MatchesRow mask v := by
  obtain ⟨row, hmem, hmask, hpat⟩ := hw
  exact ⟨row, hmem, hmask, h.trans hpat⟩

section
variable {f7 op : BitVec 7} {f5 : BitVec 5} {f3 : BitVec 3}

theorem matchesRow_encodeU (rd : RegIdx) (imm : BitVec 20) (h : MatchesRow 0x0000007F#32 (encodeU op 0 0)) :
    MatchesRow 0x0000007F#32 (encodeU op rd imm) :=
  matchesRow_of_and_eq h (and_opcode_mask (by simp))

theorem matchesRow_encodeJ (rd : RegIdx) (off : BitVec 21) (h : MatchesRow 0x0000007F#32 (encodeJ 0 0)) :
    MatchesRow 0x0000007F#32 (encodeJ rd off) :=
  matchesRow_of_and_eq h (and_opcode_mask (by simp))

theorem matchesRow_encodeI (rd : RegIdx) (rs1 : BitVec 5) (imm : BitVec 12)
    (h : MatchesRow 0x0000707F#32 (encodeI f3 op 0 0 0)) : MatchesRow 0x0000707F#32 (encodeI f3 op rd rs1 imm) :=
  matchesRow_of_and_eq h (and_funct3_mask (by simp) (by simp))

theorem matchesRow_encodeI_shift (rd : RegIdx) (rs1 shamt : BitVec 5)
    (h : MatchesRow 0xFE00707F#32 (encodeI f3 op 0 0 (f7 ++ 0#5))) :
    MatchesRow 0xFE00707F#32 (encodeI f3 op rd rs1 (f7 ++ shamt)) :=
  matchesRow_of_and_eq h (and_high_mask (lo := 25) (n := 7) (by simp) (by simp)
    ((fields_encodeI_shift ..).1.trans (fields_encodeI_shift ..).1.symm) (by decide))

theorem matchesRow_encodeS (rs1 rs2 : RegIdx) (imm : BitVec 12) (h : MatchesRow 0x0000707F#32 (encodeS f3 0 0 0)) :
    MatchesRow 0x0000707F#32 (encodeS f3 rs1 rs2 imm) :=
  matchesRow_of_and_eq h (and_funct3_mask (by simp) (by simp))

theorem matchesRow_encodeB (rs1 rs2 : RegIdx) (off : BitVec 13) (h : MatchesRow 0x0000707F#32 (encodeB f3 0 0 0)) :
    MatchesRow 0x0000707F#32 (encodeB f3 rs1 rs2 off) :=
  matchesRow_of_and_eq h (and_funct3_mask (by simp) (by simp))

theorem matchesRow_encodeR (rd rs1 rs2 : RegIdx) (h : MatchesRow 0xFE00707F#32 (encodeR f7 f3 op 0 0 0)) :
    MatchesRow 0xFE00707F#32 (encodeR f7 f3 op rd rs1 rs2) :=
  matchesRow_of_and_eq h (and_high_mask (lo := 25) (n := 7) (by simp) (by simp) (by simp) (by decide))

theorem matchesRow_encodeAmo (rd rs1 rs2 : RegIdx) (h : MatchesRow 0xF800707F#32 (encodeAmo f5 0 0 0)) :
    MatchesRow 0xF800707F#32 (encodeAmo f5 rd rs1 rs2) :=
  matchesRow_of_and_eq h (and_high_mask (lo := 27) (n := 5) (by simp) (by simp) (by simp) (by decide))

end

/-- The selecting fields of an instruction's word do not depend on its operands, and with 0 for every operand the word
cut to them is the pattern of a row. -/
theorem encode_matchesRow (i : Instr) : MatchesRow (rowMask i) (encode i) := by
  cases i
  case fence | fenceI | ecall | ebreak | mret | sret | wfi => unfold MatchesRow; decide
  case lui | auipc => refine matchesRow_encodeU _ _ ?_; unfold MatchesRow; decide
  case jal => refine matchesRow_encodeJ _ _ ?_; unfold MatchesRow; decide
  case addi | slti | sltiu | xori | ori | andi | jalr | lb | lh | lw | lbu | lhu | csrrw | csrrs | csrrc | csrrwi
      | csrrsi | csrrci =>
    refine matchesRow_encodeI _ _ _ ?_; unfold MatchesRow; decide
  case slli | srli | srai => refine matchesRow_encodeI_shift _ _ _ ?_; unfold MatchesRow; decide
  case sb | sh | sw => refine matchesRow_encodeS _ _ _ ?_; unfold MatchesRow; decide
  case beq | bne | blt | bge | bltu | bgeu => refine matchesRow_encodeB _ _ _ ?_; unfold MatchesRow; decide
  case add | sub | sll | slt | sltu | xor | srl | sra | or | and | mul | mulh | mulhsu | mulhu | div | divu | rem
      | remu =>
    refine matchesRow_encodeR _ _ _ ?_; unfold MatchesRow; decide
  case lrW | scW | amoswapW | amoaddW | amoxorW | amoandW | amoorW | amominW | amomaxW | amominuW | amomaxuW =>
    refine matchesRow_encodeAmo _ _ _ ?_; unfold MatchesRow; decide

/-- The selecting fields of an instruction are part of it. -/
theorem rowMask_and_usedBits (i : Instr) : usedBits i &&& rowMask i = rowMask i := by
  cases i
  case fence | fenceI | ecall | ebreak | mret | sret | wfi => exact BitVec.and_self
  case lrW => exact (by decide : 0xF80FFFFF#32 &&& 0xF800707F#32 = 0xF800707F#32)
  case scW | amoswapW | amoaddW | amoxorW | amoandW | amoorW | amominW | amomaxW | amominuW | amomaxuW =>
    exact (by decide : 0xF9FFFFFF#32 &&& 0xF800707F#32 = 0xF800707F#32)
  all_goals exact BitVec.allOnes_and

/-- A word that decodes matches a row: it agrees with its instruction's own word on the bits of that row's mask. -/
theorem matchesRow_of_decodeWord {w : Word} {i : Instr} (h : decodeWord w = .ok i) : MatchesRow (rowMask i) w := by
  obtain ⟨-, hused⟩ := decodeEncodeRoundTrip.2 w i h
  refine matchesRow_of_and_eq (encode_matchesRow i) ?_
  rw [← rowMask_and_usedBits i, ← BitVec.and_assoc, ← BitVec.and_assoc, hused]

/-- A word the decoder refuses is the zero word or has no mapping (R195). -/
theorem decodeWord_error {w : Word} {e : DecodeRefusal} (h : decodeWord w = .error e) :
    (w = 0#32 ∧ e = .zeroWord) ∨ (w ≠ 0#32 ∧ e = .noMapping w) := by
  unfold decodeWord at h
  split at h
  case isTrue h0 => cases h; exact .inl ⟨h0, rfl⟩
  case isFalse h0 =>
    split at h <;> cases h
    exact .inr ⟨h0, rfl⟩

/-! ## The ignored fields (R196) -/

/-- An instruction whose row has ignored fields, from a word that agrees with its own on the used bits: the word matches
the row, and the operands of the row lie in the used bits. -/
theorem decodeWord_of_row {pattern w : Word} {build : Word → Instr} {i : Instr}
    (henc : Encodes (rowMask i) pattern build) (hi : encode i &&& rowMask i = pattern) (hbuild : build w = i)
    (h : w &&& usedBits i = encode i &&& usedBits i) : decodeWord w = .ok i := by
  have hw : w &&& rowMask i = pattern := by
    rw [← hi, ← rowMask_and_usedBits, ← BitVec.and_assoc, ← BitVec.and_assoc, h]
  rw [henc w hw, hbuild]

/-- A register field inside the used bits is the one of the instruction's own word. -/
theorem regField_eq_of_and_eq {v w mask : Word} (h : v &&& mask = w &&& mask) (lo : Nat)
    (hmask : mask.extractLsb' lo 5 = BitVec.allOnes 5) : regField v lo = regField w lo := by
  have hv := congrArg (fun x : Word => x.extractLsb' lo 5) h
  simp only [BitVec.extractLsb'_and, hmask, BitVec.and_allOnes] at hv
  rw [regField, regField, hv]

/-- The operands of an AMO or `sc.w`: only aq and rl are ignored. -/
theorem buildR_of_and_eq {w : Word} {f5 : BitVec 5} {rd rs1 rs2 : RegIdx} (f : RegIdx → RegIdx → RegIdx → Instr)
    (h : w &&& 0xF9FFFFFF#32 = encodeAmo f5 rd rs1 rs2 &&& 0xF9FFFFFF#32) : buildR f w = f rd rs1 rs2 := by
  obtain ⟨-, -, -, hrd, hrs1, hrs2⟩ := fields_encodeAmo f5 rd rs1 rs2
  rw [buildR, rdField, rs1Field, rs2Field, regField_eq_of_and_eq h 7 rfl, regField_eq_of_and_eq h 15 rfl,
    regField_eq_of_and_eq h 20 rfl, ← rdField, ← rs1Field, ← rs2Field, hrd, hrs1, hrs2]

/-- The word of an AMO or `sc.w`, cut to the fields that select its row. -/
theorem encodeAmo_and_mask (f5 : BitVec 5) (rd rs1 rs2 : RegIdx) :
    encodeAmo f5 rd rs1 rs2 &&& 0xF800707F#32 = encodeAmo f5 0 0 0 &&& 0xF800707F#32 :=
  and_high_mask (lo := 27) (n := 5) (by simp) (by simp) (by simp) (by decide)

/-- R196, R202: a word that agrees with an instruction's own word on the used bits decodes to the instruction. -/
theorem decodeWord_of_usedBits {w : Word} {i : Instr} (hwf : i.wellFormed = true)
    (h : w &&& usedBits i = encode i &&& usedBits i) : decodeWord w = .ok i := by
  obtain ⟨e1, e2, e3, e4, e5, e6, e7, e8, e9⟩ := encodes_amos
  cases i
  case fence => exact decodeWord_of_row fenceResults.1 rfl rfl h
  case fenceI => exact decodeWord_of_row fenceResults.2.1 rfl rfl h
  case ecall => exact decodeWord_of_row encodes_ecall rfl rfl h
  case ebreak => exact decodeWord_of_row encodes_ebreak rfl rfl h
  case mret => exact decodeWord_of_row encodes_mret rfl rfl h
  case sret => exact decodeWord_of_row encodes_sret rfl rfl h
  case wfi => exact decodeWord_of_row encodes_wfi rfl rfl h
  case lrW rd rs1 =>
    have hw : w &&& 0xF80FFFFF#32 = encodeAmo 0b00010#5 rd rs1 0 &&& 0xF80FFFFF#32 := h
    obtain ⟨-, -, -, hrd, hrs1, -⟩ := fields_encodeAmo 0b00010#5 rd rs1 0
    refine decodeWord_of_row encodes_lr (encodeAmo_and_mask ..) ?_ h
    rw [rdField, rs1Field, regField_eq_of_and_eq hw 7 rfl, regField_eq_of_and_eq hw 15 rfl, ← rdField, ← rs1Field,
      hrd, hrs1]
  case scW => exact decodeWord_of_row encodes_sc (encodeAmo_and_mask ..) (buildR_of_and_eq _ h) h
  case amoswapW => exact decodeWord_of_row e1 (encodeAmo_and_mask ..) (buildR_of_and_eq _ h) h
  case amoaddW => exact decodeWord_of_row e2 (encodeAmo_and_mask ..) (buildR_of_and_eq _ h) h
  case amoxorW => exact decodeWord_of_row e3 (encodeAmo_and_mask ..) (buildR_of_and_eq _ h) h
  case amoandW => exact decodeWord_of_row e4 (encodeAmo_and_mask ..) (buildR_of_and_eq _ h) h
  case amoorW => exact decodeWord_of_row e5 (encodeAmo_and_mask ..) (buildR_of_and_eq _ h) h
  case amominW => exact decodeWord_of_row e6 (encodeAmo_and_mask ..) (buildR_of_and_eq _ h) h
  case amomaxW => exact decodeWord_of_row e7 (encodeAmo_and_mask ..) (buildR_of_and_eq _ h) h
  case amominuW => exact decodeWord_of_row e8 (encodeAmo_and_mask ..) (buildR_of_and_eq _ h) h
  case amomaxuW => exact decodeWord_of_row e9 (encodeAmo_and_mask ..) (buildR_of_and_eq _ h) h
  all_goals
    rw [show w = encode _ from (BitVec.and_allOnes.symm.trans h).trans BitVec.and_allOnes]
    exact decodeEncodeRoundTrip.1 _ hwf

end Sys2Proof.Machine

open Sys2Proof Sys2Proof.Machine

/-- Settles O2: a word that agrees with a decoded one on the used bits agrees on them with the instruction's own word,
which gives every selecting field and every operand. -/
theorem ignoredFieldsSelectTheSameInstruction : Obligations.IgnoredFieldsSelectTheSameInstruction := by
  intro w w' i hw h
  obtain ⟨hwf, hused⟩ := decodeEncodeRoundTrip.2 w i hw
  exact decodeWord_of_usedBits hwf (h.trans hused.symm)

/-- Settles O3: the rows hold one by one, and a word that decodes matches the row of its instruction. -/
theorem decodeMapIsTheOpcodeTable : Obligations.DecodeMapIsTheOpcodeTable := by
  refine ⟨rfl, ?rows, fun w hrows => ?none⟩
  case rows =>
    simp only [opcodeRows, List.forall_mem_append]
    exact ⟨⟨encodes_opcodeRowsInteger, encodes_opcodeRowsMemory⟩, encodes_opcodeRowsSystem⟩
  case none =>
    cases hd : decodeWord w with
    | ok i =>
      obtain ⟨row, hmem, hmask, hpat⟩ := matchesRow_of_decodeWord hd
      exact absurd (hmask ▸ hpat) (hrows row hmem)
    | error e =>
      rcases decodeWord_error hd with ⟨h0, rfl⟩ | ⟨h0, rfl⟩
      · rw [if_pos h0]
      · rw [if_neg h0]

/-- Settles O6: a field of a word is a quotient by its place modulo its size. -/
theorem rawFieldLayouts : Obligations.RawFieldLayouts := by
  intro w
  have hcsr : w.toNat / 2 ^ 20 < 2 ^ 12 := Nat.div_lt_of_lt_mul w.isLt
  refine ⟨toNat_extractLsb'_eq_div_mod w 20 5, ?csr, ?zimm, toNat_extractLsb'_eq_div_mod w 7 5,
    toNat_extractLsb'_eq_div_mod w 15 5, toNat_extractLsb'_eq_div_mod w 20 5⟩
  case csr => rw [csrField, toNat_extractLsb'_eq_div_mod, Nat.mod_eq_of_lt hcsr]
  case zimm =>
    rw [zimm32, zimmField, BitVec.toNat_setWidth_of_le (by decide), toNat_extractLsb'_eq_div_mod]

/-- Settles O7: each word is decoded by evaluation of the decode map. -/
theorem sampleWordsDecode : Obligations.SampleWordsDecode := by
  refine ⟨?_, ?_, ?_, ?_, ?_, ?_, ?_, ?_, ?_, ?_, ?_, ?_, ?_⟩ <;> decide
end

section
/-!
What an access, a trap entry and a sampling leave unchanged, one lemma per field: read off the lemmas that say all that
each of them can change (20_memory.md R111, 60_exceptions.md R400, R420).
-/

namespace Sys2Proof.Machine

/-! ## Reads (R103, R111) -/

section
variable (n : Nat) (a v : Word) (s : State)

@[simp] theorem memRead_cfg : (memRead n a s).2.cfg = s.cfg := by
  obtain ⟨u, p, e⟩ := memRead_cases n a s
  rw [e]

@[simp] theorem memRead_mode : (memRead n a s).2.mode = s.mode := by
  obtain ⟨u, p, e⟩ := memRead_cases n a s
  rw [e]

@[simp] theorem memRead_run : (memRead n a s).2.run = s.run := by
  obtain ⟨u, p, e⟩ := memRead_cases n a s
  rw [e]

@[simp] theorem memRead_csr : (memRead n a s).2.csr = s.csr := by
  obtain ⟨u, p, e⟩ := memRead_cases n a s
  rw [e]

@[simp] theorem memRead_resv : (memRead n a s).2.resv = s.resv := by
  obtain ⟨u, p, e⟩ := memRead_cases n a s
  rw [e]

@[simp] theorem memRead_resvAddr : (memRead n a s).2.resvAddr = s.resvAddr := by
  obtain ⟨u, p, e⟩ := memRead_cases n a s
  rw [e]

@[simp] theorem memRead_mem : (memRead n a s).2.mem = s.mem := by
  obtain ⟨u, p, e⟩ := memRead_cases n a s
  rw [e]

@[simp] theorem memRead_clint : (memRead n a s).2.clint = s.clint := by
  obtain ⟨u, p, e⟩ := memRead_cases n a s
  rw [e]

@[simp] theorem memRead_fb : (memRead n a s).2.fb = s.fb := by
  obtain ⟨u, p, e⟩ := memRead_cases n a s
  rw [e]

@[simp] theorem memRead_timeSource : (memRead n a s).2.timeSource = s.timeSource := by
  obtain ⟨u, p, e⟩ := memRead_cases n a s
  rw [e]

/-! ## Writes (R104) -/

@[simp] theorem memWrite_cfg : (memWrite n a v s).cfg = s.cfg := by
  obtain ⟨m, u, c, p, f, e⟩ := memWrite_cases n a v s
  rw [e]

@[simp] theorem memWrite_mode : (memWrite n a v s).mode = s.mode := by
  obtain ⟨m, u, c, p, f, e⟩ := memWrite_cases n a v s
  rw [e]

@[simp] theorem memWrite_run : (memWrite n a v s).run = s.run := by
  obtain ⟨m, u, c, p, f, e⟩ := memWrite_cases n a v s
  rw [e]

@[simp] theorem memWrite_csr : (memWrite n a v s).csr = s.csr := by
  obtain ⟨m, u, c, p, f, e⟩ := memWrite_cases n a v s
  rw [e]

@[simp] theorem memWrite_resv : (memWrite n a v s).resv = s.resv := by
  obtain ⟨m, u, c, p, f, e⟩ := memWrite_cases n a v s
  rw [e]

@[simp] theorem memWrite_resvAddr : (memWrite n a v s).resvAddr = s.resvAddr := by
  obtain ⟨m, u, c, p, f, e⟩ := memWrite_cases n a v s
  rw [e]

@[simp] theorem memWrite_timeSource : (memWrite n a v s).timeSource = s.timeSource := by
  obtain ⟨m, u, c, p, f, e⟩ := memWrite_cases n a v s
  rw [e]

end

/-! ## Trap entry (R400) -/

section
variable (c : TrapCause) (epc : Word) (s : State)

@[simp] theorem trapEntry_cfg : (trapEntry c epc s).cfg = s.cfg := by
  obtain ⟨f, e⟩ := trapEntry_cases c epc s
  rw [e]

@[simp] theorem trapEntry_regs : (trapEntry c epc s).regs = s.regs := by
  obtain ⟨f, e⟩ := trapEntry_cases c epc s
  rw [e]

@[simp] theorem trapEntry_run : (trapEntry c epc s).run = s.run := by
  obtain ⟨f, e⟩ := trapEntry_cases c epc s
  rw [e]

@[simp] theorem trapEntry_resv : (trapEntry c epc s).resv = s.resv := by
  obtain ⟨f, e⟩ := trapEntry_cases c epc s
  rw [e]

@[simp] theorem trapEntry_resvAddr : (trapEntry c epc s).resvAddr = s.resvAddr := by
  obtain ⟨f, e⟩ := trapEntry_cases c epc s
  rw [e]

@[simp] theorem trapEntry_mem : (trapEntry c epc s).mem = s.mem := by
  obtain ⟨f, e⟩ := trapEntry_cases c epc s
  rw [e]

@[simp] theorem trapEntry_uart : (trapEntry c epc s).uart = s.uart := by
  obtain ⟨f, e⟩ := trapEntry_cases c epc s
  rw [e]

@[simp] theorem trapEntry_clint : (trapEntry c epc s).clint = s.clint := by
  obtain ⟨f, e⟩ := trapEntry_cases c epc s
  rw [e]

@[simp] theorem trapEntry_plic : (trapEntry c epc s).plic = s.plic := by
  obtain ⟨f, e⟩ := trapEntry_cases c epc s
  rw [e]

@[simp] theorem trapEntry_fb : (trapEntry c epc s).fb = s.fb := by
  obtain ⟨f, e⟩ := trapEntry_cases c epc s
  rw [e]

@[simp] theorem trapEntry_timeSource : (trapEntry c epc s).timeSource = s.timeSource := by
  obtain ⟨f, e⟩ := trapEntry_cases c epc s
  rw [e]

@[simp] theorem trapEntry_mode : (trapEntry c epc s).mode = trapTarget c s := by
  obtain ⟨f, e⟩ := trapEntry_cases c epc s
  rw [e]

end

/-! ## The sampling (R420) -/

section
variable (s : State)

@[simp] theorem sampleInterrupts_cfg : (sampleInterrupts s).cfg = s.cfg := by
  rcases sampleInterrupts_cases s with e | ⟨i, -, e⟩ <;> simp [e]

@[simp] theorem sampleInterrupts_run : (sampleInterrupts s).run = s.run := by
  rcases sampleInterrupts_cases s with e | ⟨i, -, e⟩ <;> simp [e]

@[simp] theorem sampleInterrupts_resv : (sampleInterrupts s).resv = s.resv := by
  rcases sampleInterrupts_cases s with e | ⟨i, -, e⟩ <;> simp [e]

@[simp] theorem sampleInterrupts_uart : (sampleInterrupts s).uart = s.uart := by
  rcases sampleInterrupts_cases s with e | ⟨i, -, e⟩ <;> simp [e]

end

end Sys2Proof.Machine
end

section
/-!
The step of 60_exceptions.md R390, R392 and R441: every instruction answers a next state, a step ends in one of three
ways, and only a refused word, `ecall` and `ebreak` halt the engine.
-/

namespace Sys2Proof.Machine

/-! ## Every instruction answers a next state (R390) -/

theorem csrAccess_next (rd : RegIdx) (c : CsrAddr) (new : Word → Option Word) (s : State) :
    ∃ t, csrAccess rd c new s = .next t := by
  rcases csrAccess_cases rd c new s with e | ⟨-, -, e⟩ | ⟨-, v, -, e⟩ <;> exact ⟨_, e⟩

/-- No arm of `exec` faults or is refused: the forms end in `next` by definition, the others on each branch. -/
theorem exec_next (i : Instr) (s : State) : ∃ t, exec i s = .next t := by
  cases i
  case csrrw => rw [exec_csrrw]; exact csrAccess_next ..
  case csrrs => rw [exec_csrrs]; exact csrAccess_next ..
  case csrrc => rw [exec_csrrc]; exact csrAccess_next ..
  case csrrwi => rw [exec_csrrwi]; exact csrAccess_next ..
  case csrrsi => rw [exec_csrrsi]; exact csrAccess_next ..
  case csrrci => rw [exec_csrrci]; exact csrAccess_next ..
  case scW => rw [exec_scW, execScW]; split <;> exact ⟨_, rfl⟩
  case ecall => rw [exec_ecall, execEcall]; split; exacts [⟨_, rfl⟩, by split <;> exact ⟨_, rfl⟩]
  case ebreak => rw [exec_ebreak, execEbreak]; split <;> exact ⟨_, rfl⟩
  case mret => rw [exec_mret, execMret]; split <;> exact ⟨_, rfl⟩
  case sret => rw [exec_sret, execSret]; split <;> exact ⟨_, rfl⟩
  all_goals exact ⟨_, rfl⟩

/-! ## What a step does -/

/-- What a step of a running engine is made of (R390): a halt on a word that does not decode, or an instruction that
answers a next state and the end of the step. -/
theorem step_running_cases {s t : State} (hrun : s.run = .running) (h : step s = .next t) :
    (∃ e, decodeWord (fetch (timeStep s)).1 = .error e ∧
      t = (fetch (timeStep s)).2.halt (haltReasonOf (fetch (timeStep s)).1 e)) ∨
    (∃ i u, decodeWord (fetch (timeStep s)).1 = .ok i ∧ exec i (fetch (timeStep s)).2 = .next u ∧ t = endStep u) := by
  rw [step_running s hrun] at h
  cases hd : decodeWord (fetch (timeStep s)).1 with
  | error e =>
    rw [engineStep_error _ e hd] at h
    injection h with h
    exact .inl ⟨e, rfl, h.symm⟩
  | ok i =>
    rw [engineStep_ok _ i hd] at h
    cases he : exec i (fetch (timeStep s)).2 with
    | next u =>
      rw [he] at h
      injection h with h
      exact .inr ⟨i, u, rfl, he, h.symm⟩
    | fault r => rw [he] at h; cases h
    | refused r => rw [he] at h; cases h

/-- A rule for whole steps: what holds of the state when it is halted, and of the two ways a running step ends. -/
theorem step_cases {s t : State} (h : step s = .next t) :
    ((∃ r, s.run = .halted r) ∧ t = s) ∨
    (s.run = .running ∧
      ((∃ e, decodeWord (fetch (timeStep s)).1 = .error e ∧
          t = (fetch (timeStep s)).2.halt (haltReasonOf (fetch (timeStep s)).1 e)) ∨
        (∃ i u, decodeWord (fetch (timeStep s)).1 = .ok i ∧ exec i (fetch (timeStep s)).2 = .next u ∧
          t = endStep u))) := by
  cases hrun : s.run with
  | halted r =>
    rw [step_halted s r hrun] at h
    injection h with h
    exact .inl ⟨⟨r, rfl⟩, h.symm⟩
  | running => exact .inr ⟨rfl, step_running_cases hrun h⟩

/-- Every step answers a next state: `exec` does, and the end of a step is a function of the state. -/
theorem step_next (s : State) : ∃ t, step s = .next t := by
  cases hrun : s.run with
  | halted r => exact ⟨s, step_halted s r hrun⟩
  | running =>
    rw [step_running s hrun]
    cases hd : decodeWord (fetch (timeStep s)).1 with
    | error e => exact ⟨_, engineStep_error _ e hd⟩
    | ok i =>
      obtain ⟨t, ht⟩ := exec_next i (fetch (timeStep s)).2
      exact ⟨endStep t, by rw [engineStep_ok _ i hd, ht]; rfl⟩

/-- A step that runs `i` ends with the end of the step on what `i` answers. -/
theorem step_of_decode {s t : State} {i : Instr} (hrun : s.run = .running)
    (hd : decodeWord (fetch (timeStep s)).1 = .ok i) (ht : exec i (fetch (timeStep s)).2 = .next t) :
    step s = .next (endStep t) := by
  rw [step_running s hrun, engineStep_ok _ i hd, ht]
  rfl

/-! ## Halting (R392) -/

theorem endStep_of_running {s : State} (h : s.run = .running) : endStep s = sampleInterrupts s := by
  rw [endStep, h]

theorem endStep_of_not_running {s : State} (h : s.run ≠ .running) : endStep s = s := by
  rcases endStep_cases s with ⟨hr, -⟩ | ⟨-, e⟩
  · exact absurd hr h
  · exact e

/-- No instruction but `ecall` and `ebreak` changes the run state. -/
theorem exec_run {i : Instr} {s t : State} (h : exec i s = .next t) (hcall : i ≠ .ecall) (hbreak : i ≠ .ebreak) :
    t.run = s.run := by
  cases exec_cases i s t h with
  | trap e => exact trapEntry_run _ _ s
  | halt reason hi => exact absurd hi (not_or.mpr ⟨hcall, hbreak⟩)
  | load | lr | store | amo | scSuccess => simp only [memWrite_run, memRead_run, clearReservation_run]
  | regs | scFailure | csr | mret | sret | wfi => rfl

/-- R362, R364: how an `ecall` halts. -/
theorem execEcall_halted {s t : State} {r : HaltReason} (hs : s.run = .running) (h : execEcall s = .next t)
    (ht : t.run = .halted r) : s.cfg.selfTest = true ∧ r = selfTestReason s ∧ t = s.halt r := by
  unfold execEcall at h
  split at h
  case isTrue hself =>
    injection h with h
    subst h
    cases ht
    exact ⟨hself, rfl, rfl⟩
  case isFalse =>
    split at h <;> injection h with h <;> subst h
    · rw [trapEntry_run, hs] at ht; cases ht
    · rw [advance_run, hs] at ht; cases ht

/-- R366: how an `ebreak` halts. -/
theorem execEbreak_halted {s t : State} {r : HaltReason} (hs : s.run = .running) (h : execEbreak s = .next t)
    (ht : t.run = .halted r) : s.cfg.ebreakMode = .halt ∧ r = .ebreakHalt ∧ t = s.halt r := by
  unfold execEbreak at h
  split at h <;> injection h with h <;> subst h
  case h_1 => rw [advance_run, hs] at ht; cases ht
  case h_2 => rw [trapEntry_run, hs] at ht; cases ht
  case h_3 hmode => cases ht; exact ⟨hmode, rfl, rfl⟩

/-- R364: the two reasons of a self-test exit. -/
theorem selfTestReason_cases (s : State) :
    ((s.readReg 10 = 0#32 ∨ s.readReg 10 = 42#32) ∧ selfTestReason s = .selfTestPass (s.readReg 10)) ∨
    (s.readReg 10 ≠ 0#32 ∧ s.readReg 10 ≠ 42#32 ∧
      selfTestReason s = .selfTestFail (s.readReg 10) (s.readReg s.cfg.selftestDiagReg)) := by
  unfold selfTestReason
  by_cases h : s.readReg 10 = 0#32 ∨ s.readReg 10 = 42#32
  · exact .inl ⟨h, if_pos h⟩
  · obtain ⟨h0, h42⟩ := not_or.mp h
    exact .inr ⟨h0, h42, if_neg h⟩

/-! ## The state before `exec` (R390, R441) -/

section
variable (s : State)

@[simp] theorem beforeExec_cfg : (fetch (timeStep s)).2.cfg = s.cfg := by
  obtain ⟨c, o, u, p, e⟩ := beforeExec_cases s
  rw [e]

@[simp] theorem beforeExec_regs : (fetch (timeStep s)).2.regs = s.regs := by
  obtain ⟨c, o, u, p, e⟩ := beforeExec_cases s
  rw [e]

@[simp] theorem beforeExec_pc : (fetch (timeStep s)).2.pc = s.pc := by
  obtain ⟨c, o, u, p, e⟩ := beforeExec_cases s
  rw [e]

@[simp] theorem beforeExec_mode : (fetch (timeStep s)).2.mode = s.mode := by
  obtain ⟨c, o, u, p, e⟩ := beforeExec_cases s
  rw [e]

@[simp] theorem beforeExec_run : (fetch (timeStep s)).2.run = s.run := by
  obtain ⟨c, o, u, p, e⟩ := beforeExec_cases s
  rw [e]

@[simp] theorem beforeExec_csr : (fetch (timeStep s)).2.csr = s.csr := by
  obtain ⟨c, o, u, p, e⟩ := beforeExec_cases s
  rw [e]

@[simp] theorem beforeExec_resv : (fetch (timeStep s)).2.resv = s.resv := by
  obtain ⟨c, o, u, p, e⟩ := beforeExec_cases s
  rw [e]

@[simp] theorem beforeExec_readReg (r : RegIdx) : (fetch (timeStep s)).2.readReg r = s.readReg r :=
  readReg_congr _ _ (beforeExec_regs s) r

end

/-! ## The fetched word by bytes (R105) -/

theorem length_readBytes (n : Nat) (a : Word) (s : State) : (readBytes n a s).1.length = n := by
  induction n generalizing a s with
  | zero => rfl
  | succ n ih => rw [readBytes_succ, List.length_cons, ih]

/-- Byte `k` of a little-endian number. -/
theorem leNat_div_mod (l : List Byte) (k : Nat) : leNat l / 2 ^ (8 * k) % 2 ^ 8 = (l.getD k 0#8).toNat := by
  induction l generalizing k with
  | nil => rw [leNat, Nat.zero_div, List.getD_nil]; rfl
  | cons b l ih =>
    have hb : b.toNat < 2 ^ 8 := b.isLt
    cases k with
    | zero => rw [leNat, List.getD_cons_zero]; omega
    | succ k =>
      have hsplit : leNat (b :: l) / 2 ^ 8 = leNat l := by rw [leNat]; omega
      rw [List.getD_cons_succ, ← ih k, ← hsplit, Nat.div_div_eq_div_mul, ← pow_add, Nat.mul_succ, Nat.add_comm]

/-- Byte `k` of the word made of four bytes. -/
theorem extractLsb'_ofNat_leNat (l : List Byte) {k : Nat} (hk : k < 4) :
    (BitVec.ofNat 32 (leNat l)).extractLsb' (8 * k) 8 = l.getD k 0#8 := by
  apply BitVec.eq_of_toNat_eq
  rw [toNat_extractLsb'_eq_div_mod, BitVec.toNat_ofNat, ← leNat_div_mod l k]
  interval_cases k <;> omega

end Sys2Proof.Machine

open Sys2Proof Sys2Proof.Machine

/-- Settles O8: `exec` answers a next state, and the end of the step is the sampling or nothing. -/
theorem stepRunsTheDecodedInstruction : Obligations.StepRunsTheDecodedInstruction := by
  intro s i hrun hd
  obtain ⟨t, ht⟩ := exec_next i (fetch (timeStep s)).2
  have hstep := step_of_decode hrun hd ht
  exact ⟨t, ht, fun h => hstep.trans (by rw [endStep_of_running h]),
    fun h => hstep.trans (by rw [endStep_of_not_running h])⟩

/-- Settles O9: the fetch is `memRead`, which is the loop of R103, and byte `k` of a little-endian number is its
`k`-th digit in base 256. -/
theorem fetchReadsFourBytesLittleEndian : Obligations.FetchReadsFourBytesLittleEndian := by
  intro s
  have hread : fetch s = _ := memRead_eq_readBytes 4 s.pc s
  rw [hread]
  exact ⟨rfl, length_readBytes 4 s.pc s, fun k hk => extractLsb'_ofNat_leNat _ hk⟩

/-- Settles O10: no arm of `exec` faults or is refused, and a step adds none. -/
theorem everyStepAnswersNext : Obligations.EveryStepAnswersNext := ⟨exec_next, step_next⟩

/-- Settles O4: a word that matches no row is refused by the decoder, and the engine halts with the reason of R195. -/
theorem undecodableWordHaltsTheEngine : Obligations.UndecodableWordHaltsTheEngine := by
  intro s hrun hrows
  have hd := decodeMapIsTheOpcodeTable.2.2 _ hrows
  rw [step_running s hrun, engineStep_error _ _ hd]
  split <;> rfl

/-- Settles O11: a step that ends halted halted at the decoder or in an `ecall` or `ebreak`, since nothing else changes
the run state, and the sampling keeps it. -/
theorem haltedIsFinal : Obligations.HaltedIsFinal := by
  refine ⟨step_halted, fun s t r hrun hstep ht => ?_⟩
  have hpc : ({ (fetch (timeStep s)).2 with run := .halted r } : State).pc = s.pc := beforeExec_pc s
  have hbefore : (fetch (timeStep s)).2.run = .running := (beforeExec_run s).trans hrun
  rcases step_running_cases hrun hstep with ⟨e, hd, rfl⟩ | ⟨i, u, hd, he, rfl⟩
  case inl =>
    have hr : haltReasonOf (fetch (timeStep s)).1 e = r := RunState.halted.inj ht
    rcases decodeWord_error hd with ⟨h0, rfl⟩ | ⟨-, rfl⟩ <;> subst hr
    · exact ⟨rfl, hpc, .inl ⟨h0, rfl⟩⟩
    · exact ⟨rfl, hpc, .inr (.inl ⟨hd, rfl⟩)⟩
  case inr =>
    have hu : u.run ≠ .running := fun hu => by
      rw [endStep_of_running hu, sampleInterrupts_run, hu] at ht
      cases ht
    rw [endStep_of_not_running hu] at ht ⊢
    by_cases hcall : i = .ecall
    · subst hcall
      obtain ⟨hself, hr, rfl⟩ := execEcall_halted hbefore he ht
      have hreason := selfTestReason_cases (fetch (timeStep s)).2
      simp only [← hr, beforeExec_readReg, beforeExec_cfg] at hreason hself
      exact ⟨rfl, hpc, .inr (.inr (.inl ⟨hd, hself, hreason⟩))⟩
    by_cases hbreak : i = .ebreak
    · subst hbreak
      obtain ⟨hmode, hr, rfl⟩ := execEbreak_halted hbefore he ht
      rw [beforeExec_cfg] at hmode
      exact ⟨rfl, hpc, .inr (.inr (.inr ⟨hd, hmode, hr⟩))⟩
    · exact absurd ((exec_run he hcall hbreak).trans hbefore) hu

/-- Settles O12: the oracle's answer is added to `mtime` modulo `2 ^ 64`. -/
theorem timeSourceAdvancesMtime : Obligations.TimeSourceAdvancesMtime := by
  intro s
  refine ⟨(s.timeSource.ask Config.freeTime).1, (s.timeSource.ask Config.freeTime).2,
    s.clint.advance (s.timeSource.ask Config.freeTime).1, fun h => ?_, fun a rest h => ?_, rfl, ?_, rfl, rfl⟩
  · rw [Oracle.ask, h]; exact ⟨rfl, rfl⟩
  · rw [Oracle.ask, h]; exact ⟨rfl, rfl⟩
  · rw [Clint.advance, BitVec.toNat_add, BitVec.toNat_ofNat, Nat.add_mod_mod]
end

section
/-!
The invariant of the machine (10_state.md R31, R47, R53; 20_memory.md R113; 60_exceptions.md R445, R451): it splits into
one claim per part of the state, each device and shared operation keeps the claim of its part, and every shape of
instruction is made of those operations.
-/

namespace Sys2Proof.Machine

/-! ## The invariant by parts -/

/-- The CSR file's part of the invariant: R47, R53 and the canonical extra words. -/
structure CsrFile.Inv (f : CsrFile) : Prop where
  other : Sparse.wf f.other = true
  mstatus : f.mstatus &&& ~~~mstatusMask = 0#32
  mip : f.mip &&& ~~~mipPossible = 0#32

/-- The UART's part of the invariant (R113). -/
def Uart.Inv (u : Uart) : Prop := u.lsr ||| 0x01#8 = 0x61#8

/-- The PLIC's part of the invariant, for `n` sources (R445, R451). -/
structure Plic.Inv (n : Nat) (p : Plic) : Prop where
  priority : sourceMapWf n p.priority
  pending : sourceMapWf n p.pending
  enable : sourceMapWf n p.enable
  inService : sourceMapWf n p.inService
  claimLatch : p.claimLatch = 0#32 ∨ p.claimLatch.toNat < n

theorem inv_iff (s : State) :
    s.Inv ↔ s.regs[(0 : RegIdx)] = 0#32 ∧ s.mem.wf = true ∧ Sparse.wf s.fb = true ∧ s.csr.Inv ∧ s.uart.Inv ∧
      s.plic.Inv s.cfg.plicNSources := by
  constructor
  · intro h
    exact ⟨h.x0, h.mem, h.fb, ⟨h.other, h.mstatus, h.mip⟩, h.lsr,
      ⟨h.priority, h.pending, h.enable, h.inService, h.claimLatch⟩⟩
  · rintro ⟨hx, hm, hf, hc, hu, hp⟩
    exact ⟨hx, hm, hf, hc.other, hc.mstatus, hc.mip, hu, hp.priority, hp.pending, hp.enable, hp.inService,
      hp.claimLatch⟩

/-! ## Reserved bits -/

section
variable {m : Nat} {mask v : BitVec m}

/-- The bits outside a mask are 0, bit by bit. -/
theorem and_not_eq_zero_iff : v &&& ~~~mask = 0#m ↔ ∀ k, mask.getLsbD k = false → v.getLsbD k = false := by
  constructor
  · intro h k hk
    by_cases hlt : k < m
    · have hbit : (v &&& ~~~mask).getLsbD k = false := by rw [h]; exact BitVec.getLsbD_zero
      rwa [BitVec.getLsbD_and, BitVec.getLsbD_not, hk, decide_eq_true hlt, Bool.not_false, Bool.and_true,
        Bool.and_true] at hbit
    · exact BitVec.getLsbD_of_ge v k (Nat.le_of_not_lt hlt)
  · intro h
    apply BitVec.eq_of_getLsbD_eq
    intro k hk
    rw [BitVec.getLsbD_and, BitVec.getLsbD_not, BitVec.getLsbD_zero]
    cases hmask : mask.getLsbD k
    · simp [h k hmask]
    · simp

/-- Replacing a field inside the mask keeps the reserved bits 0. -/
theorem insertBits_and_not {n : Nat} (lo : Nat) (x : BitVec n) (hin : ∀ k < n, mask.getLsbD (lo + k) = true)
    (h : v &&& ~~~mask = 0#m) : insertBits v lo x &&& ~~~mask = 0#m := by
  rw [and_not_eq_zero_iff] at h ⊢
  intro k hk
  rw [getLsbD_insertBits, if_neg, h k hk]
  rintro ⟨-, hlo, hhi⟩
  have hset := hin (k - lo) (by omega)
  rw [Nat.add_sub_cancel' hlo, hk] at hset
  exact Bool.noConfusion hset

/-- Setting a bit of the mask keeps the reserved bits 0. -/
theorem setBit_and_not (j : Nat) (b : Bool) (hin : mask.getLsbD j = true) (h : v &&& ~~~mask = 0#m) :
    setBit v j b &&& ~~~mask = 0#m :=
  insertBits_and_not j (BitVec.ofBool b) (fun k hk => by rwa [Nat.lt_one_iff.mp hk]) h

/-- A merge under a mask inside the mask keeps the reserved bits 0. -/
theorem mergeMask_and_not {sub : BitVec m} (new : BitVec m) (hsub : sub &&& ~~~mask = 0#m)
    (h : v &&& ~~~mask = 0#m) : mergeMask sub v new &&& ~~~mask = 0#m := by
  rw [and_not_eq_zero_iff] at h hsub ⊢
  intro k hk
  rw [getLsbD_mergeMask, hsub k hk, if_neg Bool.false_ne_true, h k hk]

/-- What is cut to the mask has its reserved bits 0. -/
theorem and_and_not (v mask : BitVec m) : (v &&& mask) &&& ~~~mask = 0#m := by
  rw [BitVec.and_assoc, BitVec.and_not_self]; exact BitVec.and_zero

end

/-! ## The CSR file (R46 to R58, R400, R421) -/

theorem mstatusTrapM_and_not (stackIe : Bool) (mode : Mode) {v : Word} (h : v &&& ~~~mstatusMask = 0#32) :
    mstatusTrapM stackIe mode v &&& ~~~mstatusMask = 0#32 := by
  have hmpp := insertBits_and_not 11 mode.bits (by decide) h
  cases stackIe
  · exact hmpp
  · exact setBit_and_not 3 _ rfl (setBit_and_not 7 _ rfl hmpp)

theorem mstatusTrapS_and_not (stackIe : Bool) (mode : Mode) {v : Word} (h : v &&& ~~~mstatusMask = 0#32) :
    mstatusTrapS stackIe mode v &&& ~~~mstatusMask = 0#32 := by
  have hspp := setBit_and_not 8 (mode != .user) rfl h
  cases stackIe
  · exact hspp
  · exact setBit_and_not 1 _ rfl (setBit_and_not 5 _ rfl hspp)

theorem mstatusMret_and_not {v : Word} (h : v &&& ~~~mstatusMask = 0#32) :
    mstatusMret v &&& ~~~mstatusMask = 0#32 :=
  insertBits_and_not 11 _ (by decide) (setBit_and_not 7 _ rfl (setBit_and_not 3 _ rfl h))

theorem mstatusSret_and_not {v : Word} (h : v &&& ~~~mstatusMask = 0#32) :
    mstatusSret v &&& ~~~mstatusMask = 0#32 :=
  setBit_and_not 8 _ rfl (setBit_and_not 5 _ rfl (setBit_and_not 1 _ rfl h))

/-- R399: MEIP is not among the bits that can be 1, and it is copied as 0. -/
theorem mipWithLevels_and_not (msip mtip seip : Bool) {v : Word} (h : v &&& ~~~mipPossible = 0#32) :
    mipWithLevels v msip mtip seip &&& ~~~mipPossible = 0#32 := by
  have hlevels := setBit_and_not 9 seip rfl (setBit_and_not 7 mtip rfl (setBit_and_not 3 msip rfl h))
  rw [and_not_eq_zero_iff] at hlevels ⊢
  intro k hk
  rw [mipWithLevels, getLsbD_setBit]
  split
  · rfl
  · exact hlevels k hk

theorem csrWriteValue_inv {f : CsrFile} (c : CsrAddr) (v : Word) (h : f.Inv) : (csrWriteValue f c v).Inv := by
  obtain ⟨hother, hmstatus, hmip⟩ := h
  unfold csrWriteValue
  cases csrReg c
  case sstatus => exact ⟨hother, mergeMask_and_not v (by decide) hmstatus, hmip⟩
  case mstatus => exact ⟨hother, and_and_not v mstatusMask, hmip⟩
  case sip | mip => exact ⟨hother, hmstatus, mergeMask_and_not v (by decide) hmip⟩
  case other a => exact ⟨sparse_wf_set f.other a.toNat v hother, hmstatus, hmip⟩
  all_goals exact ⟨hother, hmstatus, hmip⟩

theorem enterMachine_inv (c : TrapCause) (epc : Word) {s : State} (h : s.csr.Inv) : (enterMachine c epc s).csr.Inv :=
  ⟨h.other, mstatusTrapM_and_not _ _ h.mstatus, h.mip⟩

theorem enterSupervisor_inv (c : TrapCause) (epc : Word) {s : State} (h : s.csr.Inv) :
    (enterSupervisor c epc s).csr.Inv :=
  ⟨h.other, mstatusTrapS_and_not _ _ h.mstatus, h.mip⟩

/-- Clearing a bit keeps every 0. -/
theorem clearConsumed_inv (c : TrapCause) {s : State} (h : s.csr.Inv) : (clearConsumed c s).csr.Inv := by
  cases c with
  | exception e => exact h
  | interrupt i =>
    refine ⟨h.other, h.mstatus, ?_⟩
    have hmip := h.mip
    rw [and_not_eq_zero_iff] at hmip ⊢
    intro k hk
    simp only [clearConsumed, getLsbD_setBit]
    split
    · rfl
    · exact hmip k hk

theorem trapEntry_csr_inv (c : TrapCause) (epc : Word) {s : State} (h : s.csr.Inv) :
    (trapEntry c epc s).csr.Inv := by
  unfold trapEntry
  split
  · exact clearConsumed_inv c (enterSupervisor_inv c epc h)
  · exact clearConsumed_inv c (enterMachine_inv c epc h)

/-! ## The UART (R113 to R119) -/

/-- The two values of `lsr`: DR is its only bit that changes. -/
theorem lsr_or_one_iff : ∀ l : Byte, l ||| 0x01#8 = 0x61#8 ↔ l = 0x60#8 ∨ l = 0x61#8 := by decide

theorem uart_reset_inv : Uart.reset.Inv := (lsr_or_one_iff 0x60#8).mpr (.inl rfl)

theorem setBit_lsr (b : Bool) {l : Byte} (h : l ||| 0x01#8 = 0x61#8) : setBit l 0 b ||| 0x01#8 = 0x61#8 := by
  rcases (lsr_or_one_iff l).mp h with rfl | rfl <;> cases b <;> rfl

theorem uart_readLsr_inv {u : Uart} (h : u.Inv) : u.readLsr.2.Inv := by
  unfold Uart.readLsr Uart.receive
  cases u.poll.1 with
  | none => exact h
  | some b => exact setBit_lsr true h

theorem uart_transmit_inv {u : Uart} (b : Byte) (h : u.Inv) : (u.transmit b).Inv := by
  have hlsr : u.lsr = 0x60#8 ∨ u.lsr = 0x61#8 := (lsr_or_one_iff u.lsr).mp h
  change u.lsr ||| 0x60#8 ||| 0x01#8 = 0x61#8
  rcases hlsr with e | e <;> rw [e] <;> rfl

theorem uart_readByte_inv {u : Uart} (o : Nat) (h : u.Inv) : (u.readByte o).2.Inv := by
  unfold Uart.readByte
  split
  case h_1 => split; exacts [h, setBit_lsr false h]
  case h_2 | h_3 => split <;> exact h
  case h_6 => exact uart_readLsr_inv h
  all_goals exact h

theorem uart_writeByte_inv {u : Uart} (o : Nat) (b : Byte) (h : u.Inv) : (u.writeByte o b).Inv := by
  unfold Uart.writeByte
  split
  case h_1 => split; exacts [h, uart_transmit_inv b h]
  case h_2 | h_3 => split <;> exact h
  all_goals exact h

/-! ## The PLIC (R445 to R453) -/

theorem isSource_iff {n s : Nat} : isSource n s = true ↔ 1 ≤ s ∧ s < n := by
  simp only [isSource, Bool.and_eq_true, decide_eq_true_eq]

theorem mem_sources {n s : Nat} : s ∈ sources n ↔ 1 ≤ s ∧ s < n := by
  rw [sources, List.mem_filter, List.mem_range, decide_eq_true_eq, and_comm]

section
variable {n w : Nat}

theorem sourceMapWf_set {m : Sparse w} {s : Nat} (v : BitVec w) (hs : 1 ≤ s ∧ s < n) (h : sourceMapWf n m) :
    sourceMapWf n (Sparse.set m s v) :=
  ⟨sparse_wf_set m s v h.1, sparse_within_set m 1 n s v hs.1 hs.2 h.2⟩

theorem sourceMapWf_setBitAt {m : Sparse 1} {s : Nat} (b : Bool) (hs : 1 ≤ s ∧ s < n) (h : sourceMapWf n m) :
    sourceMapWf n (setBitAt m s b) :=
  sourceMapWf_set _ hs h

/-- A sequence of writes, each to a source or to none, keeps a per-source map canonical. -/
theorem sourceMapWf_foldl {l : List Nat} {f : Sparse w → Nat → Sparse w}
    (hf : ∀ m, ∀ s ∈ l, sourceMapWf n m → sourceMapWf n (f m s)) {m : Sparse w} (h : sourceMapWf n m) :
    sourceMapWf n (l.foldl f m) :=
  List.foldlRecOn l f h fun m hm s hs => hf m s hs hm

theorem setSourceByte_wf {m : Sparse 1} (first : Nat) (b : Byte) (h : sourceMapWf n m) :
    sourceMapWf n (setSourceByte n m first b) := by
  refine sourceMapWf_foldl (fun m j _ hm => ?_) h
  split
  case isTrue hs => exact sourceMapWf_setBitAt _ (isSource_iff.mp hs) hm
  case isFalse => exact hm

end

/-- The source a claim takes is a source: the fold starts with none and goes on to ids of the list. -/
theorem plic_best_source {p : Plic} {n id : Nat} (h : p.best n = some id) : 1 ≤ id ∧ id < n := by
  have hfold : ∀ x, p.best n = some x → x ∈ sources n := by
    refine List.foldlRecOn (motive := fun best => ∀ x, best = some x → x ∈ sources n) (sources n) p.betterOf
      (fun x hx => nomatch hx) fun best hbest s hs x hx => ?_
    unfold Plic.betterOf at hx
    split at hx
    · split at hx
      · cases hx; exact hs
      · split at hx <;> cases hx
        · exact hs
        · exact hbest _ rfl
    · exact hbest x hx
  exact mem_sources.mp (hfold id h)

section
variable {p : Plic} {n : Nat}

theorem plic_claim_inv (h : p.Inv n) : (p.claim n).Inv n := by
  unfold Plic.claim
  cases hbest : p.best n with
  | none => exact ⟨h.priority, h.pending, h.enable, h.inService, .inl rfl⟩
  | some id =>
    have hid := plic_best_source hbest
    refine ⟨h.priority, sourceMapWf_setBitAt _ hid h.pending, h.enable, sourceMapWf_setBitAt _ hid h.inService,
      .inr ?_⟩
    exact Nat.lt_of_le_of_lt ((BitVec.toNat_ofNat id 32).trans_le (Nat.mod_le id _)) hid.2

theorem plic_claimRead_inv (lane : Nat) (h : p.Inv n) : (p.claimRead n lane).2.Inv n := by
  unfold Plic.claimRead
  split
  · exact plic_claim_inv h
  · exact h

theorem plic_completeWrite_inv (lane : Nat) (b : Byte) (h : p.Inv n) : (p.completeWrite n lane b).Inv n := by
  unfold Plic.completeWrite
  split
  case isTrue hs =>
    exact ⟨h.priority, h.pending, h.enable, sourceMapWf_setBitAt _ (isSource_iff.mp hs.2) h.inService, h.claimLatch⟩
  case isFalse => exact h

theorem plic_gateways_inv (level : Nat → Bool) (h : p.Inv n) : (p.gateways n level).Inv n := by
  refine ⟨h.priority, sourceMapWf_foldl (fun m s hs hm => ?_) h.pending, h.enable, h.inService, h.claimLatch⟩
  split
  · exact sourceMapWf_setBitAt _ (mem_sources.mp hs) hm
  · exact hm

theorem plic_readByte_inv (ctx o : Nat) (h : p.Inv n) : (p.readByte n ctx o).2.Inv n := by
  unfold Plic.readByte
  cases plicReg n ctx o
  case claim lane => exact plic_claimRead_inv lane h
  all_goals exact h

theorem plic_writeByte_inv (ctx o : Nat) (b : Byte) (h : p.Inv n) : (p.writeByte n ctx o b).Inv n := by
  unfold Plic.writeByte
  cases plicReg n ctx o
  case priority s lane =>
    dsimp only
    split
    case isTrue hs =>
      exact ⟨sourceMapWf_set _ (isSource_iff.mp hs) h.priority, h.pending, h.enable, h.inService, h.claimLatch⟩
    case isFalse => exact h
  case enable first =>
    exact ⟨h.priority, h.pending, setSourceByte_wf first b h.enable, h.inService, h.claimLatch⟩
  case claim lane => exact plic_completeWrite_inv lane b h
  case threshold => exact ⟨h.priority, h.pending, h.enable, h.inService, h.claimLatch⟩
  all_goals exact h

end

/-! ## The operations of a step -/

theorem busReadByte_inv (a : Word) {s : State} (h : s.Inv) : (busReadByte a s).2.Inv := by
  obtain ⟨hx, hm, hf, hc, hu, hp⟩ := (inv_iff s).mp h
  cases hr : route s.cfg a with
  | clint o => rwa [busReadByte_clint hr]
  | plic o => rw [busReadByte_plic hr, inv_iff]; exact ⟨hx, hm, hf, hc, hu, plic_readByte_inv _ o hp⟩
  | uart o => rw [busReadByte_uart hr, inv_iff]; exact ⟨hx, hm, hf, hc, uart_readByte_inv o hu, hp⟩
  | fb o => rwa [busReadByte_fb hr]
  | ram => rwa [busReadByte_ram a s hr]

theorem busWriteByte_inv (a : Word) (b : Byte) {s : State} (h : s.Inv) : (busWriteByte a b s).Inv := by
  obtain ⟨hx, hm, hf, hc, hu, hp⟩ := (inv_iff s).mp h
  rw [inv_iff]
  cases hr : route s.cfg a with
  | clint o => rw [busWriteByte_clint hr]; exact ⟨hx, hm, hf, hc, hu, hp⟩
  | plic o => rw [busWriteByte_plic hr]; exact ⟨hx, hm, hf, hc, hu, plic_writeByte_inv _ o b hp⟩
  | uart o => rw [busWriteByte_uart hr]; exact ⟨hx, hm, hf, hc, uart_writeByte_inv o b hu, hp⟩
  | fb o => rw [busWriteByte_fb hr]; exact ⟨hx, hm, sparse_wf_set _ _ _ hf, hc, hu, hp⟩
  | ram => rw [busWriteByte_ram a b s hr]; exact ⟨hx, memory_wf_write _ a b hm, hf, hc, hu, hp⟩

theorem memRead_inv (n : Nat) (a : Word) {s : State} (h : s.Inv) : (memRead n a s).2.Inv := by
  induction n generalizing a s with
  | zero => exact h
  | succ n ih => exact ih (a + 1#32) (busReadByte_inv a h)

theorem memWrite_inv (n : Nat) (a v : Word) {s : State} (h : s.Inv) : (memWrite n a v s).Inv := by
  induction n generalizing a v s with
  | zero => exact h
  | succ n ih => exact ih (a + 1#32) (v >>> 8) (busWriteByte_inv a _ h)

theorem timeStep_inv {s : State} (h : s.Inv) : (timeStep s).Inv := (inv_iff _).mpr ((inv_iff s).mp h)

theorem trapEntry_inv (c : TrapCause) (epc : Word) {s : State} (h : s.Inv) : (trapEntry c epc s).Inv := by
  obtain ⟨hx, hm, hf, hc, hu, hp⟩ := (inv_iff s).mp h
  have hcsr := trapEntry_csr_inv c epc hc
  obtain ⟨f, e⟩ := trapEntry_cases c epc s
  rw [e] at hcsr
  rw [e, inv_iff]
  exact ⟨hx, hm, hf, hcsr, hu, hp⟩

theorem updatePending_inv {s : State} (h : s.Inv) : (updatePending s).Inv := by
  obtain ⟨hx, hm, hf, hc, hu, hp⟩ := (inv_iff s).mp h
  exact (inv_iff _).mpr ⟨hx, hm, hf, ⟨hc.other, hc.mstatus, mipWithLevels_and_not _ _ _ hc.mip⟩, hu,
    plic_gateways_inv (plicLevel s) hp⟩

theorem sampleInterrupts_inv {s : State} (h : s.Inv) : (sampleInterrupts s).Inv := by
  rcases sampleInterrupts_cases s with e | ⟨i, -, e⟩ <;> rw [e]
  · exact updatePending_inv h
  · exact trapEntry_inv _ _ (updatePending_inv h)

theorem endStep_inv {s : State} (h : s.Inv) : (endStep s).Inv := by
  rcases endStep_cases s with ⟨-, e⟩ | ⟨-, e⟩ <;> rw [e]
  · exact sampleInterrupts_inv h
  · exact h

theorem halt_inv (reason : HaltReason) {s : State} (h : s.Inv) : (s.halt reason).Inv :=
  (inv_iff _).mpr ((inv_iff s).mp h)

/-! ## Instructions and steps -/

/-- R31: no instruction writes the slot of x0. -/
theorem oneRegWrite_x0 {i : Instr} {s : State} {r : Vector Word 32} (h : OneRegWrite i s r) :
    r[(0 : RegIdx)] = s.regs[(0 : RegIdx)] := by
  obtain ⟨x, v, -, rfl⟩ := h
  unfold State.writeReg
  split
  · rfl
  · rename_i hx
    have hne : (x : Nat) ≠ 0 := fun h0 => hx (Fin.ext h0)
    simp [Fin.getElem_fin, hne]

/-- A register write and a jump, on a state that meets the invariant and has the registers of `s`. -/
theorem inv_setRegs {i : Instr} {s u : State} {r : Vector Word 32} {pc : Word} (hr : OneRegWrite i s r)
    (hs : s.Inv) (hu : u.Inv) : ({ u with regs := r, pc := pc } : State).Inv := by
  obtain ⟨-, hm, hf, hc, hua, hp⟩ := (inv_iff u).mp hu
  exact (inv_iff _).mpr ⟨(oneRegWrite_x0 hr).trans hs.x0, hm, hf, hc, hua, hp⟩

/-- The reservation is no part of the invariant. -/
theorem inv_setReservation {s : State} (b : Bool) (a : Word) (h : s.Inv) :
    ({ s with resv := b, resvAddr := a } : State).Inv :=
  (inv_iff _).mpr ((inv_iff s).mp h)

theorem inv_setCsr {s : State} {f : CsrFile} (hf : f.Inv) (h : s.Inv) : ({ s with csr := f } : State).Inv := by
  obtain ⟨hx, hm, hfb, -, hu, hp⟩ := (inv_iff s).mp h
  exact (inv_iff _).mpr ⟨hx, hm, hfb, hf, hu, hp⟩

/-- Neither pc nor the mode is part of the invariant. -/
theorem inv_setPcMode {s : State} (pc : Word) (m : Mode) (h : s.Inv) : ({ s with pc := pc, mode := m } : State).Inv :=
  (inv_iff _).mpr ((inv_iff s).mp h)

theorem csr_inv {s : State} (h : s.Inv) : s.csr.Inv := ⟨h.other, h.mstatus, h.mip⟩

theorem returnFromMachine_inv {s : State} (h : s.Inv) : (returnFromMachine s).Inv := by
  have hcsr : ({ s.csr with mstatus := mstatusMret s.csr.mstatus } : CsrFile).Inv :=
    ⟨h.other, mstatusMret_and_not h.mstatus, h.mip⟩
  have hall := inv_setPcMode s.csr.mepc (Mode.ofBits (mstatusMpp s.csr.mstatus)) (inv_setCsr hcsr h)
  exact hall

theorem returnFromSupervisor_inv {s : State} (h : s.Inv) : (returnFromSupervisor s).Inv := by
  have hcsr : ({ s.csr with mstatus := mstatusSret s.csr.mstatus } : CsrFile).Inv :=
    ⟨h.other, mstatusSret_and_not h.mstatus, h.mip⟩
  have hall := inv_setPcMode s.csr.sepc (if mstatusSpp s.csr.mstatus then .supervisor else .user) (inv_setCsr hcsr h)
  exact hall

/-- Every instruction keeps the invariant: one case per shape of `exec`'s answers. -/
theorem exec_inv {i : Instr} {s t : State} (h : s.Inv) (he : exec i s = .next t) : t.Inv := by
  cases exec_cases i s t he with
  | regs r pc hr => exact inv_setRegs hr h h
  | trap e => exact trapEntry_inv _ _ h
  | halt reason => exact halt_inv reason h
  | load n a r pc hr => exact inv_setRegs hr h (memRead_inv n a h)
  | lr a r pc ra hr => exact inv_setReservation true ra (inv_setRegs (pc := pc) hr h (memRead_inv 4 a h))
  | store n a v r pc hr => exact inv_setRegs hr h (memWrite_inv n a v h)
  | amo a v r pc hr => exact inv_setRegs hr h (memWrite_inv 4 a v (memRead_inv 4 a h))
  | scSuccess a v r pc hr =>
    exact inv_setRegs hr h (memWrite_inv 4 a v (inv_setReservation false s.resvAddr h))
  | scFailure r pc hr => exact inv_setReservation false s.resvAddr (inv_setRegs (pc := pc) hr h h)
  | csr c v r pc hr => exact inv_setRegs hr h (inv_setCsr (csrWriteValue_inv c v (csr_inv h)) h)
  | mret => exact returnFromMachine_inv h
  | sret => exact returnFromSupervisor_inv h
  | wfi pc => exact inv_setPcMode pc s.mode (updatePending_inv h)

end Sys2Proof.Machine

open Sys2Proof Sys2Proof.Machine

/-- Settles O48: the invariant splits by parts of the state; the time source, the fetch, every shape of instruction and
the sampling keep each part. -/
theorem everyStepKeepsTheInvariant : Obligations.EveryStepKeepsTheInvariant := by
  intro s t hs h
  have hbefore : (fetch (timeStep s)).2.Inv := memRead_inv 4 _ (timeStep_inv hs)
  rcases step_cases h with ⟨-, rfl⟩ | ⟨-, ⟨e, -, rfl⟩ | ⟨i, u, -, he, rfl⟩⟩
  · exact hs
  · exact halt_inv _ hbefore
  · exact endStep_inv (exec_inv hbefore he)

/-- Settles O49: every part of the state after reset is all 0 or empty, but for `lsr`. -/
theorem resetMeetsTheInvariant : Obligations.ResetMeetsTheInvariant := by
  intro cfg
  have hempty : ∀ w, sourceMapWf cfg.plicNSources ([] : Sparse w) := fun w => ⟨rfl, rfl⟩
  exact (inv_iff _).mpr ⟨rfl, rfl, rfl, ⟨rfl, BitVec.zero_and, BitVec.zero_and⟩, uart_reset_inv,
    ⟨hempty 32, hempty 1, hempty 1, hempty 1, .inl rfl⟩⟩
end

section
/-!
The CSRs of 10_state.md section 6 and the CSR forms of 45_system.md section 1: the checks as numbers, what a register
reads after a write, and what each form does when its checks pass and when one fails.
-/

namespace Sys2Proof.Machine

/-! ## Modes and addresses as numbers (R36, R42) -/

@[simp] theorem bits_ofBits : ∀ b : BitVec 2, (Mode.ofBits b).bits = b := by decide

theorem mode_lt_iff (a b : Mode) : a.lt b = true ↔ a.bits.toNat < b.bits.toNat := decide_eq_true_iff

theorem toNat_csrMinMode (c : CsrAddr) : (csrMinMode c).bits.toNat = c.toNat / 2 ^ 8 % 2 ^ 2 := by
  rw [csrMinMode, bits_ofBits, BitVec.extractLsb'_toNat, Nat.shiftRight_eq_div_pow]

theorem csrReadOnly_iff (c : CsrAddr) : csrReadOnly c = true ↔ c.toNat / 2 ^ 10 = 3 := by
  have hc : c.toNat / 2 ^ 10 < 2 ^ 2 := Nat.div_lt_of_lt_mul c.isLt
  rw [csrReadOnly, beq_iff_eq, ← BitVec.toNat_inj, BitVec.extractLsb'_toNat, Nat.shiftRight_eq_div_pow,
    Nat.mod_eq_of_lt hc]
  rfl

/-- R44: the checks of a read. -/
theorem csrReadable_iff (c : CsrAddr) (s : State) :
    csrReadable c s = true ↔ c ∈ s.cfg.csrSet ∧ c.toNat / 2 ^ 8 % 2 ^ 2 ≤ s.mode.bits.toNat := by
  rw [csrReadable, Bool.and_eq_true, csrValid, List.contains_iff_mem, Bool.not_eq_true', ← Bool.not_eq_true,
    mode_lt_iff, toNat_csrMinMode, Nat.not_lt]

/-- R45: the checks of a write. -/
theorem csrWritable_iff (c : CsrAddr) (s : State) :
    csrWritable c s = true ↔
      (c ∈ s.cfg.csrSet ∧ c.toNat / 2 ^ 8 % 2 ^ 2 ≤ s.mode.bits.toNat) ∧ c.toNat / 2 ^ 10 ≠ 3 := by
  rw [csrWritable, Bool.and_eq_true, csrReadable_iff, Bool.not_eq_true', ← Bool.not_eq_true, csrReadOnly_iff]

theorem csrReadable_of_csrWritable {c : CsrAddr} {s : State} (h : csrWritable c s = true) :
    csrReadable c s = true := by
  rw [csrWritable, Bool.and_eq_true] at h
  exact h.1

/-! ## The forms (R350) -/

section
variable {rd : RegIdx} {c : CsrAddr} {new : Word → Option Word} {s : State} {i : Instr}

/-- A failing read check: nothing is written. -/
theorem takes_of_not_readable (hi : exec i s = csrAccess rd c new s) (h : csrReadable c s = false) :
    Takes i .illegalInstruction s := by
  rw [Takes, hi, csrAccess, csrGet_eq_none c s h]
  rfl

/-- A failing write check of a form that writes: nothing is written. -/
theorem takes_of_not_writable {v : Word} (hi : exec i s = csrAccess rd c new s)
    (hnew : new (csrReadValue s.cfg s.csr c) = some v) (h : csrWritable c s = false) :
    Takes i .illegalInstruction s := by
  cases hr : csrReadable c s
  · exact takes_of_not_readable hi hr
  · rw [Takes, hi]
    simp only [csrAccess, csrGet_eq_some c s hr, hnew, csrSet_eq_none c v s h]
    rfl

theorem csrResult_of_read (hi : exec i s = csrAccess rd c new s) (hnew : new (csrReadValue s.cfg s.csr c) = none)
    (h : csrReadable c s = true) : CsrResult i rd (csrReadValue s.cfg s.csr c) s.csr s := by
  refine ⟨_, ?_, finish_regWrite s rd _, finish_pc s rd _, finish_same s rd _⟩
  simp only [hi, csrAccess, csrGet_eq_some c s h, hnew]

theorem csrResult_of_write {v : Word} (hi : exec i s = csrAccess rd c new s)
    (hnew : new (csrReadValue s.cfg s.csr c) = some v) (h : csrWritable c s = true) :
    CsrResult i rd (csrReadValue s.cfg s.csr c) (csrWriteValue s.csr c v) s := by
  refine ⟨({ s with csr := csrWriteValue s.csr c v } : State).finish rd _, ?_, finish_regWrite_of_regs_eq rfl rd _,
    finish_pc _ rd _, finish_same _ rd _⟩
  simp only [hi, csrAccess, csrGet_eq_some c s (csrReadable_of_csrWritable h), hnew, csrSet_eq_some c v s h]

/-- A form that always writes `v`: its result, or IllegalInstruction when a check fails. -/
theorem csrWrite_results {v : Word} (hi : exec i s = csrAccess rd c new s)
    (hnew : new (csrReadValue s.cfg s.csr c) = some v) :
    ((c ∈ s.cfg.csrSet ∧ c.toNat / 2 ^ 8 % 2 ^ 2 ≤ s.mode.bits.toNat) ∧ c.toNat / 2 ^ 10 ≠ 3 →
      CsrResult i rd (csrReadValue s.cfg s.csr c) (csrWriteValue s.csr c v) s) ∧
    (¬ ((c ∈ s.cfg.csrSet ∧ c.toNat / 2 ^ 8 % 2 ^ 2 ≤ s.mode.bits.toNat) ∧ c.toNat / 2 ^ 10 ≠ 3) →
      Takes i .illegalInstruction s) := by
  rw [← csrWritable_iff]
  exact ⟨csrResult_of_write hi hnew, fun h => takes_of_not_writable hi hnew (Bool.not_eq_true _ ▸ h)⟩

/-- A form that writes `v` where `writes` says so: its two results, or IllegalInstruction when a check fails. -/
theorem csrSetClear_results {writes : Prop} {v : Word} (hi : exec i s = csrAccess rd c new s)
    (hsome : writes → new (csrReadValue s.cfg s.csr c) = some v)
    (hnone : ¬ writes → new (csrReadValue s.cfg s.csr c) = none) :
    let readOk := c ∈ s.cfg.csrSet ∧ c.toNat / 2 ^ 8 % 2 ^ 2 ≤ s.mode.bits.toNat
    let writeOk := readOk ∧ c.toNat / 2 ^ 10 ≠ 3
    (writes → writeOk → CsrResult i rd (csrReadValue s.cfg s.csr c) (csrWriteValue s.csr c v) s) ∧
    (¬ writes → readOk → CsrResult i rd (csrReadValue s.cfg s.csr c) s.csr s) ∧
    (writes ∧ ¬ writeOk ∨ ¬ readOk → Takes i .illegalInstruction s) := by
  refine ⟨fun hw hok => (csrWrite_results hi (hsome hw)).1 hok,
    fun hw hok => csrResult_of_read hi (hnone hw) ((csrReadable_iff c s).mpr hok), ?_⟩
  rintro (⟨hw, hno⟩ | hno)
  · exact (csrWrite_results hi (hsome hw)).2 hno
  · rw [← csrReadable_iff, Bool.not_eq_true] at hno
    exact takes_of_not_readable hi hno

end

theorem zimm32_eq_ofNat (z : BitVec 5) : zimm32 z = BitVec.ofNat 32 z.toNat := by
  rw [zimm32, BitVec.ofNat_toNat]

theorem setClrWrites_iff (rs1 : RegIdx) (s : State) :
    setClrWrites rs1 s = true ↔ s.cfg.csrRegSetClrX0Writes = true ∨ rs1 ≠ 0 := by
  rw [setClrWrites, Bool.or_eq_true, decide_eq_true_eq]

/-! ## Reads after writes (R48 to R58) -/

theorem mergeMask_and {m : Nat} (mask old new : BitVec m) : mergeMask mask old new &&& mask = new &&& mask := by
  apply BitVec.eq_of_getLsbD_eq
  intro k hk
  rw [BitVec.getLsbD_and, BitVec.getLsbD_and, getLsbD_mergeMask]
  cases mask.getLsbD k <;> simp

/-- A mask inside another one. -/
theorem and_and_of_and_eq {m : Nat} {a b : BitVec m} (v : BitVec m) (h : a &&& b = b) : v &&& a &&& b = v &&& b := by
  rw [BitVec.and_assoc, h]

/-- A raw register reads what was written to it. -/
theorem csrReadValue_csrWriteValue_raw (cfg : Config) (f : CsrFile) (c : CsrAddr) (v : Word)
    (h : csrIsRaw (csrReg c) = true) : csrReadValue cfg (csrWriteValue f c v) c = v := by
  unfold csrReadValue csrWriteValue
  generalize csrReg c = r at h
  cases r
  case pmpcfg i => exact Vector.getElem_set_self i.isLt
  case pmpaddr i => exact Vector.getElem_set_self i.isLt
  case sstatus | sie | sip | mstatus | misa | mip | mvendorid | marchid | mimpid | mhartid | other => cases h
  all_goals rfl

/-- Two registers that do not share storage are different. -/
theorem ne_of_sharesStorage {a b : CsrReg} (h : sharesStorage a b = false) : a ≠ b := by
  rintro rfl
  rw [sharesStorage, decide_eq_true rfl, Bool.true_or] at h
  cases h

theorem cond_eq_left {α : Type} {b : Bool} {x y : α} (h : b = false → y = x) : (bif b then x else y) = x := by
  cases b
  · exact h rfl
  · rfl

/-- A write changes at most what the registers that show the same storage read: one case per register written and
register read, where the two vectors and the extra words are read at another index. -/
theorem csrReadValue_csrWriteValue_cond (cfg : Config) (f : CsrFile) (a b : CsrAddr) (v : Word) :
    (bif sharesStorage (csrReg a) (csrReg b) then csrReadValue cfg f b
      else csrReadValue cfg (csrWriteValue f a v) b) = csrReadValue cfg f b := by
  unfold csrReadValue csrWriteValue
  generalize csrReg a = ra
  generalize csrReg b = rb
  cases ra <;> cases rb
  case pmpcfg.pmpcfg i j =>
    exact cond_eq_left fun hs => Vector.getElem_set_ne i.isLt j.isLt
      fun hij => ne_of_sharesStorage hs (congrArg CsrReg.pmpcfg (Fin.ext hij))
  case pmpaddr.pmpaddr i j =>
    exact cond_eq_left fun hs => Vector.getElem_set_ne i.isLt j.isLt
      fun hij => ne_of_sharesStorage hs (congrArg CsrReg.pmpaddr (Fin.ext hij))
  case other.other x y =>
    exact cond_eq_left fun hs => sparse_get_set_ne f.other x.toNat y.toNat v
      fun hxy => ne_of_sharesStorage hs (congrArg CsrReg.other (BitVec.eq_of_toNat_eq hxy.symm))
  all_goals rfl

end Sys2Proof.Machine

open Sys2Proof Sys2Proof.Machine

/-- Settles O32: the accessors branch on the checks, and the checks are these numbers. -/
theorem csrAccessorChecks : Obligations.CsrAccessorChecks := by
  intro c v s
  refine ⟨fun h => csrGet_eq_some c s ((csrReadable_iff c s).mpr h), fun h => csrGet_eq_none c s ?_,
    fun ⟨hset, hmode, hro⟩ => csrSet_eq_some c v s ((csrWritable_iff c s).mpr ⟨⟨hset, hmode⟩, hro⟩),
    fun h => csrSet_eq_none c v s ?_⟩
  · rw [← Bool.not_eq_true, csrReadable_iff]
    rintro ⟨hset, hmode⟩
    exact h.elim (fun hno => hno hset) (fun hlt => absurd hmode (Nat.not_le.mpr hlt))
  · rw [← Bool.not_eq_true, csrWritable_iff]
    rintro ⟨⟨hset, hmode⟩, hro⟩
    exact h.elim (fun hno => hno hset) (fun hor => hor.elim (fun hlt => absurd hmode (Nat.not_le.mpr hlt)) hro)

/-- Settles O35: each row is the I-type row with the CSR address as its immediate; each form is `csrAccess`, which
writes exactly where its rule says so. -/
theorem csrRegisterFormResults : Obligations.CsrRegisterFormResults := by
  refine ⟨encodes_csr, fun rd rs1 c s => ?_⟩
  have hw := setClrWrites_iff rs1 s
  obtain ⟨w1, w2⟩ := csrWrite_results (exec_csrrw rd c rs1 s) rfl
  obtain ⟨s1, s2, s3⟩ := csrSetClear_results (exec_csrrs rd c rs1 s) (fun h => if_pos (hw.mpr h))
    (fun h => if_neg (fun h' => h (hw.mp h')))
  obtain ⟨c1, c2, c3⟩ := csrSetClear_results (exec_csrrc rd c rs1 s) (fun h => if_pos (hw.mpr h))
    (fun h => if_neg (fun h' => h (hw.mp h')))
  exact ⟨w1, w2, s1, s2, s3, c1, c2, c3⟩

/-- Settles O36: as for the register forms, with the immediate in the rs1 field. -/
theorem csrImmediateFormResults : Obligations.CsrImmediateFormResults := by
  refine ⟨encodes_csrImm, fun rd z c s => ?_⟩
  simp only [← zimm32_eq_ofNat]
  obtain ⟨w1, w2⟩ := csrWrite_results (exec_csrrwi rd c z s) rfl
  obtain ⟨s1, s2, s3⟩ := csrSetClear_results (exec_csrrsi rd c z s) (fun h => if_pos h) (fun h => if_neg h)
  obtain ⟨c1, c2, c3⟩ := csrSetClear_results (exec_csrrci rd c z s) (fun h => if_pos h) (fun h => if_neg h)
  exact ⟨w1, w2, s1, fun hz => s2 (not_not.mpr hz), s3, c1, fun hz => c2 (not_not.mpr hz), c3⟩

/-- Settles O33: a raw register stores the word; the others merge it under their mask, whose bits are those listed. -/
theorem csrReadAfterWrite : Obligations.CsrReadAfterWrite := by
  intro cfg f v
  have hs : ∀ k < 32, sstatusMask.getLsbD k = decide (k ∈ [0, 1, 4, 5, 8, 13, 14, 15, 16, 18, 19, 31]) := by decide
  have hie : ∀ k < 32, sLevelMask.getLsbD k = decide (k ∈ [1, 5, 9]) := by decide
  have hip : ∀ k < 32, mipWriteMask.getLsbD k = decide (k ∈ [1, 5]) := by decide
  have hsip : ∀ k < 32, sipWriteMask.getLsbD k = decide (k = 1) := by decide
  refine ⟨fun c => csrReadValue_csrWriteValue_raw cfg f c v, rfl, and_and_of_and_eq v (by decide),
    mergeMask_and _ _ _, fun k hk => ?_, fun k hk => ?_, mergeMask_and _ _ _, rfl, fun k hk => ?_, fun k hk => ?_,
    fun k hk => ?_, rfl, rfl⟩
  · change (mergeMask sstatusMask f.mstatus v).getLsbD k = _
    simp only [getLsbD_mergeMask, hs k hk, decide_eq_true_eq]
  · change (mergeMask sLevelMask f.mie v).getLsbD k = _
    simp only [getLsbD_mergeMask, hie k hk, decide_eq_true_eq]
  · change (mergeMask mipWriteMask f.mip v).getLsbD k = _
    simp only [getLsbD_mergeMask, hip k hk, decide_eq_true_eq]
  · change (mergeMask sipWriteMask f.mip v).getLsbD k = _
    simp only [getLsbD_mergeMask, hsip k hk, decide_eq_true_eq]
  · change (f.mip &&& sLevelMask).getLsbD k = _
    rw [BitVec.getLsbD_and, hie k hk, Bool.and_comm]

/-- Settles O34: where two addresses share no storage, the conditional read is the read after the write. -/
theorem csrWriteLeavesOthersAlone : Obligations.CsrWriteLeavesOthersAlone := by
  intro cfg f a b v h
  have hcond := csrReadValue_csrWriteValue_cond cfg f a b v
  rwa [h, cond_false] at hcond

end

section
/-!
The table of 10_state.md R41 and the privilege rule of 60_exceptions.md R394: a CSR's place in the address space gives
the lowest mode that may write it, so a step below M changes of the configuration at most what S may write, and a step
in U nothing.
-/

namespace Sys2Proof.Machine

/-! ## The table of R41 -/

/-- A register of the table, and not another word of the bank. -/
def isTableReg : CsrReg → Bool
  | .other _ => false
  | _ => true

theorem ne_other_of_isTableReg {r : CsrReg} (h : isTableReg r = true) (a : CsrAddr) : r ≠ .other a := by
  rintro rfl
  cases h

/-- Every default address names a register of the table. -/
theorem isTableReg_defaultCsrSet : ∀ c ∈ Config.default.csrSet, isTableReg (csrReg c) = true :=
  List.all_eq_true.mp rfl

/-- The minimum mode of every default address. -/
theorem csrMinMode_defaultCsrSet : ∀ c ∈ Config.default.csrSet,
    csrMinMode c = if c.toNat < 0x200 then .supervisor else .machine := by
  have hall : (Config.default.csrSet.all fun c =>
    decide (csrMinMode c = if c.toNat < 0x200 then .supervisor else .machine)) = true := rfl
  exact fun c hc => of_decide_eq_true (List.all_eq_true.mp hall c hc)

/-- The access of every default address. -/
theorem csrReadOnly_defaultCsrSet : ∀ c ∈ Config.default.csrSet, csrReadOnly c = decide (0xF00 ≤ c.toNat) := by
  have hall : (Config.default.csrSet.all fun c => csrReadOnly c == decide (0xF00 ≤ c.toNat)) = true := rfl
  exact fun c hc => beq_iff_eq.mp (List.all_eq_true.mp hall c hc)

/-- What a register reads after reset: 0, but for the constants, which are parameters (R56, R57, R470). -/
def CsrReg.resetValue (cfg : Config) : CsrReg → Word
  | .misa => cfg.misaValue
  | .mvendorid => cfg.mvendorid
  | .marchid => cfg.marchid
  | .mimpid => cfg.mimpid
  | .mhartid => cfg.mhartid
  | _ => 0#32

theorem csrReadValue_reset (cfg : Config) (c : CsrAddr) :
    csrReadValue cfg CsrFile.reset c = (csrReg c).resetValue cfg := by
  unfold csrReadValue
  cases csrReg c
  case pmpcfg i => exact Vector.getElem_replicate i.isLt
  case pmpaddr i => exact Vector.getElem_replicate i.isLt
  all_goals rfl

/-- The addresses of the constants. -/
theorem resetValue_csrReg (cfg : Config) (c : CsrAddr) :
    (csrReg c).resetValue cfg =
      if c = 0x301#12 then cfg.misaValue else if c = 0xF11#12 then cfg.mvendorid else if c = 0xF12#12 then cfg.marchid
      else if c = 0xF13#12 then cfg.mimpid else if c = 0xF14#12 then cfg.mhartid else 0#32 := by
  unfold csrReg
  split
  case h_27 =>
    have hzero : ∀ (p q : Prop) [Decidable p] [Decidable q] (i : Fin 4) (j : Fin 16),
        (if p then CsrReg.pmpcfg i else if q then .pmpaddr j else .other c).resetValue cfg = 0#32 := by
      intro p q _ _ i j
      split
      · rfl
      · split <;> rfl
    rw [hzero, if_neg (by assumption), if_neg (by assumption), if_neg (by assumption), if_neg (by assumption),
      if_neg (by assumption)]
  all_goals rfl

/-- R42: the lowest mode, as a number, that may access a register. -/
def CsrReg.level : CsrReg → Nat
  | .sstatus | .sie | .stvec | .scounteren | .sscratch | .sepc | .scause | .stval | .sip | .satp => 1
  | .other c => c.toNat / 2 ^ 8 % 2 ^ 2
  | _ => 3

/-- R41, R42: bits 9:8 of the address of a register are its level. -/
theorem level_csrReg (c : CsrAddr) : (csrReg c).level = c.toNat / 2 ^ 8 % 2 ^ 2 := by
  have hc : c.toNat < 2 ^ 12 := c.isLt
  unfold csrReg
  split
  case h_27 =>
    split
    case isTrue hcfg =>
      have hnum := congrArg BitVec.toNat hcfg
      rw [BitVec.extractLsb'_toNat, Nat.shiftRight_eq_div_pow] at hnum
      have hval : c.toNat / 2 ^ 2 % 2 ^ 10 = 0xE8 := hnum
      change 3 = _
      omega
    case isFalse =>
      split
      case isTrue haddr =>
        have hnum := congrArg BitVec.toNat haddr
        rw [BitVec.extractLsb'_toNat, Nat.shiftRight_eq_div_pow] at hnum
        have hval : c.toNat / 2 ^ 4 % 2 ^ 8 = 0x3B := hnum
        change 3 = _
        omega
      case isFalse => rfl
  all_goals rfl

/-! ## What a CSR write below M leaves alone -/

/-- The configuration that only M may write is the same in `f` and `g`, and of `mie` all but the bits `sie` shows. -/
structure MachineConfigKept (f g : CsrFile) : Prop where
  medeleg : g.medeleg = f.medeleg
  mideleg : g.mideleg = f.mideleg
  mtvec : g.mtvec = f.mtvec
  mscratch : g.mscratch = f.mscratch
  mcounteren : g.mcounteren = f.mcounteren
  mtval : g.mtval = f.mtval
  pmpcfg : g.pmpcfg = f.pmpcfg
  pmpaddr : g.pmpaddr = f.pmpaddr
  mie : ∀ k < 32, k ≠ 1 → k ≠ 5 → k ≠ 9 → g.mie.getLsbD k = f.mie.getLsbD k

/-- The configuration that S may write too is the same in `f` and `g`. -/
structure SupervisorConfigKept (f g : CsrFile) : Prop where
  stvec : g.stvec = f.stvec
  scounteren : g.scounteren = f.scounteren
  sscratch : g.sscratch = f.sscratch
  stval : g.stval = f.stval
  satp : g.satp = f.satp
  mie : g.mie = f.mie

theorem MachineConfigKept.of_mie_eq {f g : CsrFile} (h : g = { f with
    mstatus := g.mstatus, mip := g.mip, mie := f.mie, mepc := g.mepc, mcause := g.mcause, sepc := g.sepc,
    scause := g.scause, stvec := g.stvec, scounteren := g.scounteren, sscratch := g.sscratch, stval := g.stval,
    satp := g.satp, other := g.other }) : MachineConfigKept f g := by
  rw [h]
  exact ⟨rfl, rfl, rfl, rfl, rfl, rfl, rfl, rfl, fun _ _ _ _ _ => rfl⟩

/-- A write to a register of a lower level than M (R54: `sie` writes bits 1, 5 and 9 of `mie` alone). -/
theorem csrWriteValue_machineConfigKept {c : CsrAddr} (f : CsrFile) (v : Word) (h : (csrReg c).level < 3) :
    MachineConfigKept f (csrWriteValue f c v) := by
  unfold csrWriteValue
  cases hr : csrReg c
  case sie =>
    refine ⟨rfl, rfl, rfl, rfl, rfl, rfl, rfl, rfl, fun k hk h1 h5 h9 => ?_⟩
    have hmask : ∀ k < 32, k ≠ 1 → k ≠ 5 → k ≠ 9 → sLevelMask.getLsbD k = false := by decide
    change (mergeMask sLevelMask f.mie v).getLsbD k = _
    rw [getLsbD_mergeMask, hmask k hk h1 h5 h9, if_neg Bool.false_ne_true]
  case sstatus | stvec | scounteren | sscratch | sepc | scause | stval | sip | satp | other =>
    exact ⟨rfl, rfl, rfl, rfl, rfl, rfl, rfl, rfl, fun _ _ _ _ _ => rfl⟩
  all_goals
    rw [hr] at h
    exact absurd h (Nat.lt_irrefl 3)

/-- U may write no register of the table: the words it may write are outside it. -/
theorem csrWriteValue_supervisorConfigKept {c : CsrAddr} (f : CsrFile) (v : Word) (h : (csrReg c).level = 0) :
    SupervisorConfigKept f (csrWriteValue f c v) := by
  unfold csrWriteValue
  cases hr : csrReg c
  case other => exact ⟨rfl, rfl, rfl, rfl, rfl, rfl⟩
  all_goals
    rw [hr] at h
    cases h

/-! ## What traps, returns and the sampling leave alone -/

/-- `g` is `f` but for the registers that traps, trap returns and the copy of the device levels write. -/
def TrapFieldsOnly (f g : CsrFile) : Prop :=
  ∃ ms ip me mc se sc, g =
    { f with mstatus := ms, mip := ip, mepc := me, mcause := mc, sepc := se, scause := sc }

theorem TrapFieldsOnly.refl (f : CsrFile) : TrapFieldsOnly f f := ⟨_, _, _, _, _, _, rfl⟩

theorem TrapFieldsOnly.trans {f g h : CsrFile} (hfg : TrapFieldsOnly f g) (hgh : TrapFieldsOnly g h) :
    TrapFieldsOnly f h := by
  obtain ⟨_, _, _, _, _, _, rfl⟩ := hfg
  obtain ⟨_, _, _, _, _, _, rfl⟩ := hgh
  exact ⟨_, _, _, _, _, _, rfl⟩

theorem MachineConfigKept.trans_trapFields {f g h : CsrFile} (hfg : MachineConfigKept f g)
    (hgh : TrapFieldsOnly g h) : MachineConfigKept f h := by
  obtain ⟨_, _, _, _, _, _, rfl⟩ := hgh
  exact ⟨hfg.medeleg, hfg.mideleg, hfg.mtvec, hfg.mscratch, hfg.mcounteren, hfg.mtval, hfg.pmpcfg, hfg.pmpaddr,
    hfg.mie⟩

theorem SupervisorConfigKept.trans_trapFields {f g h : CsrFile} (hfg : SupervisorConfigKept f g)
    (hgh : TrapFieldsOnly g h) : SupervisorConfigKept f h := by
  obtain ⟨_, _, _, _, _, _, rfl⟩ := hgh
  exact ⟨hfg.stvec, hfg.scounteren, hfg.sscratch, hfg.stval, hfg.satp, hfg.mie⟩

theorem MachineConfigKept.refl (f : CsrFile) : MachineConfigKept f f :=
  ⟨rfl, rfl, rfl, rfl, rfl, rfl, rfl, rfl, fun _ _ _ _ _ => rfl⟩

theorem SupervisorConfigKept.refl (f : CsrFile) : SupervisorConfigKept f f := ⟨rfl, rfl, rfl, rfl, rfl, rfl⟩

theorem trapEntry_trapFieldsOnly (c : TrapCause) (epc : Word) (s : State) :
    TrapFieldsOnly s.csr (trapEntry c epc s).csr :=
  trapEntry_csr c epc s

theorem sampleInterrupts_trapFieldsOnly (s : State) : TrapFieldsOnly s.csr (sampleInterrupts s).csr := by
  have hpending : TrapFieldsOnly s.csr (updatePending s).csr := ⟨_, _, _, _, _, _, rfl⟩
  rcases sampleInterrupts_cases s with e | ⟨i, -, e⟩ <;> rw [e]
  · exact hpending
  · exact hpending.trans (trapEntry_trapFieldsOnly _ _ _)

theorem endStep_trapFieldsOnly (s : State) : TrapFieldsOnly s.csr (endStep s).csr := by
  rcases endStep_cases s with ⟨-, e⟩ | ⟨-, e⟩ <;> rw [e]
  · exact sampleInterrupts_trapFieldsOnly s
  · exact .refl _

/-- An instruction changes the CSR file by a trap, a return or the device levels, or by one checked CSR write. -/
theorem exec_csr_cases {i : Instr} {s t : State} (h : exec i s = .next t) :
    TrapFieldsOnly s.csr t.csr ∨ ∃ c v, csrWritable c s = true ∧ t.csr = csrWriteValue s.csr c v := by
  cases exec_cases i s t h with
  | csr c v r pc hr hc => exact .inr ⟨c, v, hc, rfl⟩
  | trap e => exact .inl (trapEntry_trapFieldsOnly _ _ s)
  | mret | sret | wfi => exact .inl ⟨_, _, _, _, _, _, rfl⟩
  | regs | halt | scFailure => exact .inl (.refl _)
  | load | lr | store | amo | scSuccess =>
    left
    simp only [memWrite_csr, memRead_csr, clearReservation_csr]
    exact .refl _

/-- R394: a rule about the CSR file that traps, returns and the levels keep and that holds of every write whose checks
pass holds of every step. -/
theorem step_csr_rule {R : CsrFile → CsrFile → Prop} {s t : State} (hrefl : R s.csr s.csr)
    (htrans : ∀ {f g}, R s.csr f → TrapFieldsOnly f g → R s.csr g)
    (hwrite : ∀ c v, (csrReg c).level ≤ s.mode.bits.toNat → R s.csr (csrWriteValue s.csr c v))
    (h : step s = .next t) : R s.csr t.csr := by
  rcases step_cases h with ⟨-, rfl⟩ | ⟨-, ⟨e, -, rfl⟩ | ⟨i, u, -, he, rfl⟩⟩
  · exact hrefl
  · rw [halt_csr, beforeExec_csr]
    exact hrefl
  · refine htrans ?_ (endStep_trapFieldsOnly u)
    rcases exec_csr_cases he with htrap | ⟨c, v, hc, e⟩
    · rw [beforeExec_csr] at htrap
      exact htrans hrefl htrap
    · obtain ⟨⟨-, hmode⟩, -⟩ := (csrWritable_iff c _).mp hc
      rw [beforeExec_mode, ← level_csrReg] at hmode
      rw [e, beforeExec_csr]
      exact hwrite c v hmode

end Sys2Proof.Machine

open Sys2Proof Sys2Proof.Machine

/-- Settles O31: the default addresses are checked row by row, and the table names each register's storage. -/
theorem defaultCsrTable : Obligations.DefaultCsrTable := by
  refine ⟨rfl, by decide, fun c hc => ?_, fun cfg f => ?_⟩
  · refine ⟨ne_other_of_isTableReg (isTableReg_defaultCsrSet c hc), csrMinMode_defaultCsrSet c hc,
      csrReadOnly_defaultCsrSet c hc, ?_⟩
    rw [csrReadValue_reset, resetValue_csrReg]
    simp only [Config.default, ite_self]
  · refine ⟨rfl, rfl, rfl, rfl, rfl, rfl, rfl, rfl, rfl, rfl, rfl, rfl, rfl, rfl, rfl, rfl, rfl, rfl, rfl, rfl, rfl,
      rfl, fun i => ?_, fun i => ?_, rfl, rfl, rfl, rfl⟩ <;> fin_cases i <;> rfl

/-- Settles O47: below M a checked write reaches no register of level 3, in U none of level 1, and the rest of a step
writes the trap registers alone. -/
theorem lowerModesCannotConfigureHigherOnes : Obligations.LowerModesCannotConfigureHigherOnes := by
  intro s t h
  refine ⟨fun hmode => ?machine, fun hmode => ?user⟩
  case machine =>
    have hlow : s.mode.bits.toNat < 3 := by
      cases hm : s.mode with
      | machine => exact absurd hm hmode
      | _ => decide
    obtain ⟨h1, h2, h3, h4, h5, h6, h7, h8, h9⟩ := step_csr_rule (.refl s.csr) MachineConfigKept.trans_trapFields
      (fun c v hc => csrWriteValue_machineConfigKept s.csr v (Nat.lt_of_le_of_lt hc hlow)) h
    exact ⟨h1, h2, h3, h4, h5, h6, h7, h8, h9⟩
  case user =>
    have hzero : s.mode.bits.toNat = 0 := by rw [hmode]; rfl
    obtain ⟨h1, h2, h3, h4, h5, h6⟩ := step_csr_rule (.refl s.csr) SupervisorConfigKept.trans_trapFields
      (fun c v hc => csrWriteValue_supervisorConfigKept s.csr v (Nat.le_zero.mp (hzero ▸ hc))) h
    exact ⟨h1, h2, h3, h4, h5, h6⟩
end

section
/-!
The jumps and branches of 41_control.md, and MULHSU and the divisions of 43_muldiv.md: targets as integer sums, and
quotients and remainders by the signs of the operands.
-/

namespace Sys2Proof.Machine

/-! ## Targets (R270, R274 to R276) -/

/-- A sum with an offset, at any pc. -/
theorem add_eq_ofInt_toNat (a b : Word) : a + b = BitVec.ofInt 32 ((a.toNat : Int) + b.toInt) := by
  rw [BitVec.ofInt_add, BitVec.ofInt_natCast, BitVec.ofInt_toInt, BitVec.ofNat_toNat, BitVec.setWidth_eq]

theorem linkValue_eq_ofNat (s : State) : linkValue s = BitVec.ofNat 32 (s.pc.toNat + 4) := add_eq_ofNat s.pc 4#32

/-- A jump: the link value in `rd`, then the target, which was computed before. -/
theorem jump_result {i : Instr} {rd : RegIdx} {target target' : Word} {s : State}
    (h : exec i s = .next ((s.writeReg rd (linkValue s)).setPc target)) (ht : target = target') :
    ∃ t, exec i s = .next t ∧ RegWrite rd (BitVec.ofNat 32 (s.pc.toNat + 4)) s t ∧ t.pc = target' ∧
      SameBeyondRegs s t := by
  refine ⟨_, h, fun r => ?_, ht, ?_⟩
  · rw [setPc_readReg, readReg_writeReg, linkValue_eq_ofNat]
  · constructor <;> simp

/-- A branch with any spelling of its condition. -/
theorem setsPcOnly_of_branchIf {i : Instr} {cond : Word → Word → Bool} {rs1 rs2 : RegIdx} {off : BitVec 13} {s : State}
    {p : Prop} [Decidable p] (h : exec i s = branchIf cond rs1 rs2 off s)
    (hp : cond (s.readReg rs1) (s.readReg rs2) = true ↔ p) :
    SetsPcOnly i (if p then BitVec.ofInt 32 ((s.pc.toNat : Int) + off.toInt) else BitVec.ofNat 32 (s.pc.toNat + 4))
      s := by
  have htaken : branchTarget off s = BitVec.ofInt 32 ((s.pc.toNat : Int) + off.toInt) := by
    rw [branchTarget, add_eq_ofInt_toNat, toInt_branchOffset]
  have hnext : s.pc + 4#32 = BitVec.ofNat 32 (s.pc.toNat + 4) := add_eq_ofNat s.pc 4#32
  rw [SetsPcOnly, h, branchIf_eq, htaken, hnext]
  simp only [hp]

theorem equalWords_iff (a b : Word) : equalWords a b = true ↔ a.toNat = b.toNat := by
  rw [equalWords, decide_eq_true_eq, BitVec.toNat_inj]

theorem lessSigned_iff (a b : Word) : lessSigned a b = true ↔ a.toInt < b.toInt := decide_eq_true_iff

theorem lessUnsigned_iff (a b : Word) : lessUnsigned a b = true ↔ a.toNat < b.toNat := decide_eq_true_iff

/-! ## Products (R314) -/

/-- One operand by its own sign, the other one without. -/
theorem highWord_mul_toInt_toNat (a b : Word) :
    highWord (a.toInt * (b.toNat : Int)) = (a.signExtend 64 * b.setWidth 64).extractLsb' 32 32 := by
  rw [highWord_mul, BitVec.signExtend, setWidth64_eq_ofInt]

/-! ## Words of exact integers -/

theorem toInt_lowWord {i : Int} (hlo : -2 ^ 31 ≤ i) (hhi : i < 2 ^ 31) : (lowWord i).toInt = i :=
  BitVec.toInt_ofInt_eq_self (by decide) hlo hhi

theorem lowWord_toInt (a : Word) : lowWord a.toInt = a := BitVec.ofInt_toInt

/-- A word is 0, the least or minus one as an integer exactly when it is as a word. -/
theorem toInt_eq_iff (a b : Word) : a.toInt = b.toInt ↔ a = b := BitVec.toInt_inj

/-! ## Signed division (R311, R316, R318) -/

section
variable {x y : Int}

theorem tdiv_of_nonneg (hx : 0 ≤ x) (hy : 0 ≤ y) : x.tdiv y = ((x.natAbs / y.natAbs : Nat) : Int) := by
  rw [Int.ofNat_tdiv, Int.natAbs_of_nonneg hx, Int.natAbs_of_nonneg hy]

theorem tdiv_of_neg_of_nonneg (hx : x ≤ 0) (hy : 0 ≤ y) : x.tdiv y = -((x.natAbs / y.natAbs : Nat) : Int) := by
  have h := tdiv_of_nonneg (Int.neg_nonneg_of_nonpos hx) hy
  rw [Int.neg_tdiv, Int.natAbs_neg] at h
  rw [← h, Int.neg_neg]

/-- Rounding toward zero, by the signs: the quotient of the sizes, negative where the signs differ. -/
theorem tdiv_eq_ite (x y : Int) :
    x.tdiv y = if (0 ≤ x) = (0 ≤ y) then ((x.natAbs / y.natAbs : Nat) : Int)
      else -((x.natAbs / y.natAbs : Nat) : Int) := by
  by_cases hx : 0 ≤ x <;> by_cases hy : 0 ≤ y
  · rw [if_pos (by simp [hx, hy]), tdiv_of_nonneg hx hy]
  · have h := tdiv_of_nonneg hx (y := -y) (by omega)
    rw [Int.tdiv_neg, Int.natAbs_neg] at h
    rw [if_neg (by simp [hx, hy]), ← h, Int.neg_neg]
  · rw [if_neg (by simp [hx, hy]), tdiv_of_neg_of_nonneg (by omega) hy]
  · have h := tdiv_of_neg_of_nonneg (x := x) (y := -y) (by omega) (by omega)
    rw [Int.tdiv_neg, Int.natAbs_neg] at h
    rw [if_pos (by simp [hx, hy]), ← Int.neg_inj, h]

/-- The remainder has the sign of the dividend. -/
theorem sub_mul_tdiv_eq_ite (x y : Int) :
    x - y * x.tdiv y = if 0 ≤ x then ((x.natAbs % y.natAbs : Nat) : Int) else -((x.natAbs % y.natAbs : Nat) : Int) := by
  have hsize := Int.natAbs_tmod x y
  rw [← Int.tmod_def, ← hsize]
  split
  next h => rw [Int.natAbs_of_nonneg (Int.tmod_nonneg y h)]
  next h =>
    have := Int.tmod_nonneg y (a := -x) (by omega)
    rw [Int.neg_tmod] at this
    omega

/-- Neither part is larger than the dividend. -/
theorem natAbs_sub_mul_tdiv_le (x y : Int) : (x - y * x.tdiv y).natAbs ≤ x.natAbs := by
  rw [← Int.tmod_def, Int.natAbs_tmod]
  exact Nat.mod_le ..

end

/-! ### The quotient and remainder words, by the cases of R311 -/

section
variable (a b : Word)

theorem remainder_of_zero : lowWord (signedRemainder a.toInt (0#32).toInt) = a := lowWord_toInt a

/-- Where the divisor is neither 0 nor part of the overflow case, the quotient is the exact one. -/
theorem signedQuotient_of_ne {a b : Word} (hb : b ≠ 0#32) (hover : ¬ (a = 0x80000000#32 ∧ b = 0xFFFFFFFF#32)) :
    signedQuotient a.toInt b.toInt = a.toInt.tdiv b.toInt := by
  have hb' : b.toInt ≠ 0 := fun h => hb ((toInt_eq_iff b 0#32).mp h)
  have hover' : ¬ (a.toInt = -2 ^ 31 ∧ b.toInt = -1) := fun h =>
    hover ⟨(toInt_eq_iff a 0x80000000#32).mp h.1, (toInt_eq_iff b 0xFFFFFFFF#32).mp h.2⟩
  rw [signedQuotient, if_neg hb', if_neg hover']

theorem signedRemainder_of_ne {a b : Word} (hb : b ≠ 0#32) (hover : ¬ (a = 0x80000000#32 ∧ b = 0xFFFFFFFF#32)) :
    signedRemainder a.toInt b.toInt = a.toInt - b.toInt * a.toInt.tdiv b.toInt := by
  have hb' : b.toInt ≠ 0 := fun h => hb ((toInt_eq_iff b 0#32).mp h)
  have hover' : ¬ (a.toInt = -2 ^ 31 ∧ b.toInt = -1) := fun h =>
    hover ⟨(toInt_eq_iff a 0x80000000#32).mp h.1, (toInt_eq_iff b 0xFFFFFFFF#32).mp h.2⟩
  rw [signedRemainder, if_neg hb', if_neg hover']

/-- Outside the overflow case the exact quotient fits a word. -/
theorem tdiv_lt_of_not_overflow {a b : Word} (hover : ¬ (a = 0x80000000#32 ∧ b = 0xFFFFFFFF#32)) :
    a.toInt.tdiv b.toInt < 2 ^ 31 := by
  have hsize := Int.natAbs_tdiv_le_natAbs a.toInt b.toInt
  have halo := BitVec.le_toInt a
  have hahi := BitVec.toInt_lt (x := a)
  by_contra hbig
  have hleast : a.toInt = -2 ^ 31 := by omega
  refine hover ⟨(toInt_eq_iff a 0x80000000#32).mp hleast, (toInt_eq_iff b 0xFFFFFFFF#32).mp ?_⟩
  rw [hleast, tdiv_eq_ite] at hbig
  by_contra hb
  have hnonneg := Int.natCast_nonneg ((-2 ^ 31 : Int).natAbs / b.toInt.natAbs)
  by_cases hneg : 0 ≤ b.toInt
  · rw [if_neg (by simp [hneg])] at hbig
    omega
  · have hhalf : (-2 ^ 31 : Int).natAbs / b.toInt.natAbs ≤ 2 ^ 31 / 2 :=
      Nat.div_le_div_left (by change b.toInt ≠ -1 at hb; omega) Nat.two_pos
    rw [if_pos (by simp [hneg])] at hbig
    omega

theorem toInt_quotient {a b : Word} (hb : b ≠ 0#32) (hover : ¬ (a = 0x80000000#32 ∧ b = 0xFFFFFFFF#32)) :
    (lowWord (signedQuotient a.toInt b.toInt)).toInt = a.toInt.tdiv b.toInt := by
  have hsize := Int.natAbs_tdiv_le_natAbs a.toInt b.toInt
  have halo := BitVec.le_toInt a
  have hahi := BitVec.toInt_lt (x := a)
  have hhi := tdiv_lt_of_not_overflow hover
  rw [signedQuotient_of_ne hb hover]
  exact toInt_lowWord (by omega) hhi

theorem toInt_remainder {a b : Word} (hb : b ≠ 0#32) (hover : ¬ (a = 0x80000000#32 ∧ b = 0xFFFFFFFF#32)) :
    (lowWord (signedRemainder a.toInt b.toInt)).toInt = a.toInt - b.toInt * a.toInt.tdiv b.toInt := by
  have hsize := natAbs_sub_mul_tdiv_le a.toInt b.toInt
  have hsign := sub_mul_tdiv_eq_ite a.toInt b.toInt
  have halo := BitVec.le_toInt a
  have hahi := BitVec.toInt_lt (x := a)
  rw [signedRemainder_of_ne hb hover]
  refine toInt_lowWord (by omega) ?_
  split at hsign <;> omega

/-- The division identity modulo 2^32, at the overflow too. -/
theorem signed_division_identity {a b : Word} (hb : b ≠ 0#32) :
    a = b * lowWord (signedQuotient a.toInt b.toInt) + lowWord (signedRemainder a.toInt b.toInt) := by
  by_cases hover : a = 0x80000000#32 ∧ b = 0xFFFFFFFF#32
  · obtain ⟨rfl, rfl⟩ := hover
    rfl
  · rw [signedQuotient_of_ne hb hover, signedRemainder_of_ne hb hover]
    calc a = BitVec.ofInt 32 a.toInt := BitVec.ofInt_toInt.symm
      _ = BitVec.ofInt 32 (b.toInt * a.toInt.tdiv b.toInt + (a.toInt - b.toInt * a.toInt.tdiv b.toInt)) := by
        rw [add_sub_cancel]
      _ = _ := by rw [BitVec.ofInt_add, BitVec.ofInt_mul, BitVec.ofInt_toInt, lowWord, lowWord]

/-- The unsigned quotient and remainder. -/
theorem toNat_unsigned_division {a b : Word} (hb : b ≠ 0#32) :
    (BitVec.ofNat 32 (unsignedQuotient a.toNat b.toNat)).toNat = a.toNat / b.toNat ∧
      (BitVec.ofNat 32 (unsignedRemainder a.toNat b.toNat)).toNat = a.toNat % b.toNat := by
  have hb' : b.toNat ≠ 0 := fun h => hb (BitVec.eq_of_toNat_eq h)
  rw [unsignedQuotient, unsignedRemainder, if_neg hb', if_neg hb', BitVec.toNat_ofNat, BitVec.toNat_ofNat]
  exact ⟨Nat.mod_eq_of_lt (Nat.lt_of_le_of_lt (Nat.div_le_self ..) a.isLt),
    Nat.mod_eq_of_lt (Nat.lt_of_le_of_lt (Nat.mod_le ..) a.isLt)⟩

theorem unsigned_division_identity {a b : Word} (hb : b ≠ 0#32) :
    a = b * BitVec.ofNat 32 (unsignedQuotient a.toNat b.toNat) +
      BitVec.ofNat 32 (unsignedRemainder a.toNat b.toNat) := by
  obtain ⟨hq, hr⟩ := toNat_unsigned_division (a := a) hb
  apply BitVec.eq_of_toNat_eq
  rw [BitVec.toNat_add, BitVec.toNat_mul, hq, hr, Nat.mod_add_mod, Nat.div_add_mod, Nat.mod_eq_of_lt a.isLt]

end

end Sys2Proof.Machine

open Sys2Proof Sys2Proof.Machine

/-- Settles O15: the link value and the targets are sums, computed before `rd` is written. -/
theorem jumpResults : Obligations.JumpResults := by
  refine ⟨encodes_jal, encodes_jalr, fun rd rs1 off imm s =>
    ⟨jump_result (exec_jal ..) ?_, jump_result (exec_jalr ..) ?_⟩⟩
  · rw [jumpTarget, add_eq_ofInt_toNat, toInt_jumpOffset]
  · rw [jumpRegisterTarget, add_eq_ofInt, toInt_imm12]

/-- Settles O16: each branch is `branchIf` with the comparison its rule names. -/
theorem branchResults : Obligations.BranchResults := by
  refine ⟨encodes_branches, fun rs1 rs2 off s => ?_⟩
  refine ⟨setsPcOnly_of_branchIf (exec_beq ..) (equalWords_iff _ _), setsPcOnly_of_branchIf (exec_bne ..) ?bne,
    setsPcOnly_of_branchIf (exec_blt ..) (lessSigned_iff _ _), setsPcOnly_of_branchIf (exec_bge ..) ?bge,
    setsPcOnly_of_branchIf (exec_bltu ..) (lessUnsigned_iff _ _), setsPcOnly_of_branchIf (exec_bgeu ..) ?bgeu⟩
  case bne => rw [Bool.not_eq_true', ← Bool.not_eq_true, equalWords_iff]
  case bge => rw [Bool.not_eq_true', ← Bool.not_eq_true, lessSigned_iff, Int.not_lt]
  case bgeu => rw [Bool.not_eq_true', ← Bool.not_eq_true, lessUnsigned_iff, Nat.not_lt]

/-- Settles O26: as for the other high products, with one operand extended by its sign and the other one by zeros. -/
theorem mulhsuResult : Obligations.MulhsuResult :=
  ⟨encodes_mulhsu, fun _ _ _ _ => writesRd_of_finish_eq (exec_mulhsu ..) (highWord_mul_toInt_toNat _ _)⟩

/-- Settles O27: by the three cases of the model's definitions; the identity from the exact one, and at the overflow
by computing. -/
theorem divideResults : Obligations.DivideResults := by
  refine ⟨encodes_divisions, fun rd rs1 rs2 s => ?_⟩
  intro a b
  refine ⟨_, _, _, _, writesRd_of_finish _ _ _ _ (exec_div ..), writesRd_of_finish _ _ _ _ (exec_rem ..),
    writesRd_of_finish _ _ _ _ (exec_divu ..), writesRd_of_finish _ _ _ _ (exec_remu ..), ?zero, ?overflow,
    fun hb hover => ⟨?quotient, ?remainder⟩, toNat_unsigned_division,
    fun hb => ⟨signed_division_identity hb, unsigned_division_identity hb⟩⟩
  case zero =>
    intro hb
    change s.readReg rs2 = 0#32 at hb
    rw [hb]
    refine ⟨rfl, rfl, remainder_of_zero _, ?_⟩
    change BitVec.ofNat 32 a.toNat = a
    rw [BitVec.ofNat_toNat, BitVec.setWidth_eq]
  case overflow =>
    rintro ⟨ha, hb⟩
    change s.readReg rs1 = _ at ha
    change s.readReg rs2 = _ at hb
    rw [ha, hb]
    exact ⟨rfl, rfl, rfl, rfl⟩
  case quotient => exact (toInt_quotient hb hover).trans (tdiv_eq_ite ..)
  case remainder => exact (toInt_remainder hb hover).trans (sub_mul_tdiv_eq_ite ..)
end

section
/-!
Loads, stores and atomics: their frames (20_memory.md R101 to R111), the bytes a store leaves in RAM, and the results of
44_atomic.md.
-/

namespace Sys2Proof.Machine

/-! ## An access leaves a device alone when no byte of it is routed there (R101) -/

@[simp] theorem busReadByte_cfg (a : Word) (s : State) : (busReadByte a s).2.cfg = s.cfg := by
  obtain ⟨u, p, e⟩ := busReadByte_cases a s
  rw [e]

@[simp] theorem busWriteByte_cfg (a : Word) (b : Byte) (s : State) : (busWriteByte a b s).cfg = s.cfg := by
  obtain ⟨m, u, c, p, f, e⟩ := busWriteByte_cases a b s
  rw [e]

/-- What every byte read of an allowed route keeps, a read sequence of allowed routes keeps. -/
theorem memRead_keeps {α : Type} {f : State → α} {P : Route → Prop}
    (hbyte : ∀ a s, P (route s.cfg a) → f (busReadByte a s).2 = f s) {n : Nat} {a : Word} {s : State}
    (h : ∀ x ∈ accessBytes a n, P (route s.cfg x)) : f (memRead n a s).2 = f s := by
  induction n generalizing a s with
  | zero => rfl
  | succ n ih =>
    rw [accessBytes_succ, List.forall_mem_cons] at h
    obtain ⟨hfirst, hrest⟩ := h
    have hrest' : ∀ x ∈ accessBytes (a + 1#32) n, P (route (busReadByte a s).2.cfg x) := by
      rwa [busReadByte_cfg]
    exact (ih hrest').trans (hbyte a s hfirst)

/-- What every byte write of an allowed route keeps, a write sequence of allowed routes keeps. -/
theorem memWrite_keeps {α : Type} {f : State → α} {P : Route → Prop}
    (hbyte : ∀ a b s, P (route s.cfg a) → f (busWriteByte a b s) = f s) {n : Nat} {a v : Word} {s : State}
    (h : ∀ x ∈ accessBytes a n, P (route s.cfg x)) : f (memWrite n a v s) = f s := by
  induction n generalizing a v s with
  | zero => rfl
  | succ n ih =>
    rw [accessBytes_succ, List.forall_mem_cons] at h
    obtain ⟨hfirst, hrest⟩ := h
    have hrest' : ∀ x ∈ accessBytes (a + 1#32) n, P (route (busWriteByte a (v.setWidth 8) s).cfg x) := by
      rwa [busWriteByte_cfg]
    exact (ih hrest').trans (hbyte a (v.setWidth 8) s hfirst)

section
variable {n : Nat} {a v : Word} {s : State}

theorem memRead_uart_of_route (h : ∀ x ∈ accessBytes a n, ∀ o, route s.cfg x ≠ .uart o) :
    (memRead n a s).2.uart = s.uart := by
  refine memRead_keeps (f := State.uart) (P := fun r => ∀ o, r ≠ .uart o) (fun a s h => ?_) h
  unfold busReadByte
  cases hr : route s.cfg a with
  | uart o => exact absurd hr (h o)
  | _ => rfl

theorem memRead_plic_of_route (h : ∀ x ∈ accessBytes a n, ∀ o, route s.cfg x ≠ .plic o) :
    (memRead n a s).2.plic = s.plic := by
  refine memRead_keeps (f := State.plic) (P := fun r => ∀ o, r ≠ .plic o) (fun a s h => ?_) h
  unfold busReadByte
  cases hr : route s.cfg a with
  | plic o => exact absurd hr (h o)
  | _ => rfl

theorem memWrite_clint_of_route (h : ∀ x ∈ accessBytes a n, ∀ o, route s.cfg x ≠ .clint o) :
    (memWrite n a v s).clint = s.clint := by
  refine memWrite_keeps (f := State.clint) (P := fun r => ∀ o, r ≠ .clint o) (fun a b s h => ?_) h
  unfold busWriteByte
  cases hr : route s.cfg a with
  | clint o => exact absurd hr (h o)
  | _ => rfl

theorem memWrite_plic_of_route (h : ∀ x ∈ accessBytes a n, ∀ o, route s.cfg x ≠ .plic o) :
    (memWrite n a v s).plic = s.plic := by
  refine memWrite_keeps (f := State.plic) (P := fun r => ∀ o, r ≠ .plic o) (fun a b s h => ?_) h
  unfold busWriteByte
  cases hr : route s.cfg a with
  | plic o => exact absurd hr (h o)
  | _ => rfl

theorem memWrite_uart_of_route (h : ∀ x ∈ accessBytes a n, ∀ o, route s.cfg x ≠ .uart o) :
    (memWrite n a v s).uart = s.uart := by
  refine memWrite_keeps (f := State.uart) (P := fun r => ∀ o, r ≠ .uart o) (fun a b s h => ?_) h
  unfold busWriteByte
  cases hr : route s.cfg a with
  | uart o => exact absurd hr (h o)
  | _ => rfl

theorem memWrite_fb_of_route (h : ∀ x ∈ accessBytes a n, ∀ o, route s.cfg x ≠ .fb o) :
    (memWrite n a v s).fb = s.fb := by
  refine memWrite_keeps (f := State.fb) (P := fun r => ∀ o, r ≠ .fb o) (fun a b s h => ?_) h
  unfold busWriteByte
  cases hr : route s.cfg a with
  | fb o => exact absurd hr (h o)
  | _ => rfl

theorem memWrite_mem_of_route (h : ∀ x ∈ accessBytes a n, route s.cfg x ≠ .ram) : (memWrite n a v s).mem = s.mem :=
  memWrite_keeps (f := State.mem) (P := fun r => r ≠ .ram) (fun a b s => busWriteByte_mem_of_route a b s) h

end

/-! ## The bytes a write leaves in RAM (R102, R106) -/

theorem add_ofNat_succ (a : Word) (k : Nat) : a + BitVec.ofNat 32 (k + 1) = a + 1#32 + BitVec.ofNat 32 k := by
  rw [BitVec.add_assoc, Nat.add_comm, BitVec.ofNat_add]

/-- The first byte of a longer access is not one of the later ones: they wrap only after 2^32 (R107). -/
theorem notMem_accessBytes_succ (a : Word) {n : Nat} (hn : n < 2 ^ 32) : a ∉ accessBytes (a + 1#32) n := by
  simp only [accessBytes, List.mem_map, List.mem_range, not_exists, not_and]
  intro i hi h
  have := congrArg BitVec.toNat h
  rw [← add_ofNat_succ, BitVec.toNat_add, BitVec.toNat_ofNat] at this
  have := a.isLt
  omega

/-- Byte `k` of a write to RAM reads back as byte `k` of the value. -/
theorem memWrite_mem_read_byte {n k : Nat} {a v : Word} {s : State} (hn : n ≤ 2 ^ 32) (hwf : s.mem.wf = true)
    (hram : InRam s.cfg a n) (hk : k < n) :
    (memWrite n a v s).mem.read (a + BitVec.ofNat 32 k) = (v >>> (8 * k)).setWidth 8 := by
  induction n generalizing k a v s with
  | zero => exact absurd hk (Nat.not_lt_zero k)
  | succ n ih =>
    obtain ⟨hfirst, hrest⟩ := (inRam_succ ..).mp hram
    rw [memWrite]
    cases k with
    | zero =>
      rw [BitVec.add_zero, memWrite_mem_read _ _ _ _ _ (notMem_accessBytes_succ a (by omega)),
        busWriteByte_ram _ _ _ hfirst]
      exact memory_read_write_same _ _ _ hwf
    | succ k =>
      have hrest' : InRam (busWriteByte a (v.setWidth 8) s).cfg (a + 1#32) n := by rwa [busWriteByte_cfg]
      rw [add_ofNat_succ a k, ih (by omega) (busWriteByte_mem_wf _ _ _ hwf) hrest' (by omega),
        ← BitVec.shiftRight_add, Nat.mul_succ, Nat.add_comm]

/-! ## The frames -/

/-- What a load or `lr.w` of `n` bytes at `ea` into `rd` leaves unchanged, the reservation left open. -/
structure ReadFrame (rd : RegIdx) (n : Nat) (ea : Word) (s t : State) : Prop where
  mem : t.mem = s.mem
  fb : t.fb = s.fb
  regs : ∀ r, r ≠ rd → t.readReg r = s.readReg r
  clint : t.clint = s.clint
  csr : t.csr = s.csr
  mode : t.mode = s.mode
  run : t.run = s.run
  cfg : t.cfg = s.cfg
  timeSource : t.timeSource = s.timeSource
  devices : NoReadSideEffect s.cfg ea n → t.uart = s.uart ∧ t.plic = s.plic

/-- What a write of `n` bytes at `ea` leaves unchanged of memory and the devices. -/
structure WriteFrame (n : Nat) (ea : Word) (s t : State) : Prop where
  mem : ∀ a, a ∉ accessBytes ea n → t.mem.read a = s.mem.read a
  csr : t.csr = s.csr
  mode : t.mode = s.mode
  run : t.run = s.run
  cfg : t.cfg = s.cfg
  resvAddr : t.resvAddr = s.resvAddr
  timeSource : t.timeSource = s.timeSource
  clint : (∀ a ∈ accessBytes ea n, ∀ o, route s.cfg a ≠ .clint o) → t.clint = s.clint
  plic : (∀ a ∈ accessBytes ea n, ∀ o, route s.cfg a ≠ .plic o) → t.plic = s.plic
  uart : (∀ a ∈ accessBytes ea n, ∀ o, route s.cfg a ≠ .uart o) → t.uart = s.uart
  fb : (∀ a ∈ accessBytes ea n, ∀ o, route s.cfg a ≠ .fb o) → t.fb = s.fb

section
variable {rd rs1 rs2 : RegIdx} {s t : State}

/-- `finish` leaves every register but `rd` as it was before the access. -/
theorem finish_readReg_of_ne {u : State} (hregs : u.regs = s.regs) {r : RegIdx} (hr : r ≠ rd) (v : Word) :
    (u.finish rd v).readReg r = s.readReg r := by
  rw [finish_regWrite_of_regs_eq hregs rd v r, if_neg fun h => hr h.1]

theorem memRead_devices {n : Nat} {ea : Word} (h : NoReadSideEffect s.cfg ea n) :
    (memRead n ea s).2.uart = s.uart ∧ (memRead n ea s).2.plic = s.plic :=
  ⟨memRead_uart_of_route fun a ha o => (h a ha o).1, memRead_plic_of_route fun a ha o => (h a ha o).2⟩

theorem loadWith_frame {n : Nat} {ext : Word → Word} {imm : BitVec 12} (h : loadWith n ext rd rs1 imm s = .next t) :
    ReadFrame rd n (effectiveAddress rs1 imm s) s t ∧ t.resv = s.resv ∧ t.resvAddr = s.resvAddr := by
  obtain rfl := Host.Outcome.next.inj h
  refine ⟨⟨?_, ?_, fun r hr => finish_readReg_of_ne (memRead_regs ..) hr _, ?_, ?_, ?_, ?_, ?_, ?_, ?devices⟩, ?_, ?_⟩
  case devices => rw [finish_uart, finish_plic]; exact memRead_devices
  all_goals simp

theorem execLrW_frame (h : execLrW rd rs1 s = .next t) : ReadFrame rd 4 (atomicAddress rs1 s) s t := by
  obtain rfl := Host.Outcome.next.inj h
  refine ⟨?_, ?_, fun r hr => finish_readReg_of_ne ?regs hr _, ?_, ?_, ?_, ?_, ?_, ?_, ?devices⟩
  case regs => rw [reserve_regs, memRead_regs]
  case devices => rw [finish_uart, finish_plic, reserve_uart, reserve_plic]; exact memRead_devices
  all_goals simp

theorem memWrite_frame (n : Nat) (ea v : Word) (s : State) : WriteFrame n ea s (memWrite n ea v s) where
  mem _ := memWrite_mem_read _ _ _ _ _
  csr := memWrite_csr ..
  mode := memWrite_mode ..
  run := memWrite_run ..
  cfg := memWrite_cfg ..
  resvAddr := memWrite_resvAddr ..
  timeSource := memWrite_timeSource ..
  clint := memWrite_clint_of_route
  plic := memWrite_plic_of_route
  uart := memWrite_uart_of_route
  fb := memWrite_fb_of_route

/-- A read changes less than a write at the same addresses may. -/
theorem memRead_frame (n : Nat) (ea : Word) (s : State) : WriteFrame n ea s (memRead n ea s).2 where
  mem _ _ := by rw [memRead_mem]
  csr := memRead_csr ..
  mode := memRead_mode ..
  run := memRead_run ..
  cfg := memRead_cfg ..
  resvAddr := memRead_resvAddr ..
  timeSource := memRead_timeSource ..
  clint _ := memRead_clint ..
  plic := memRead_plic_of_route
  uart := memRead_uart_of_route
  fb _ := memRead_fb ..

theorem clearReservation_frame (n : Nat) (ea : Word) (s : State) : WriteFrame n ea s s.clearReservation := by
  constructor <;> simp

theorem WriteFrame.trans {n : Nat} {ea : Word} {u : State} (h : WriteFrame n ea s u) (h' : WriteFrame n ea u t) :
    WriteFrame n ea s t where
  mem a ha := (h'.mem a ha).trans (h.mem a ha)
  csr := h'.csr.trans h.csr
  mode := h'.mode.trans h.mode
  run := h'.run.trans h.run
  cfg := h'.cfg.trans h.cfg
  resvAddr := h'.resvAddr.trans h.resvAddr
  timeSource := h'.timeSource.trans h.timeSource
  clint ha := (h'.clint (h.cfg.symm ▸ ha)).trans (h.clint ha)
  plic ha := (h'.plic (h.cfg.symm ▸ ha)).trans (h.plic ha)
  uart ha := (h'.uart (h.cfg.symm ▸ ha)).trans (h.uart ha)
  fb ha := (h'.fb (h.cfg.symm ▸ ha)).trans (h.fb ha)

/-- What changes registers and pc alone is inside every frame. -/
theorem WriteFrame.of_same {u : State} (n : Nat) (ea : Word) (h : SameBeyondRegs s u) : WriteFrame n ea s u where
  mem _ _ := by rw [h.mem]
  csr := h.csr
  mode := h.mode
  run := h.run
  cfg := h.cfg
  resvAddr := h.resvAddr
  timeSource := h.timeSource
  clint _ := h.clint
  plic _ := h.plic
  uart _ := h.uart
  fb _ := h.fb

theorem storeBytes_frame {n : Nat} {imm : BitVec 12} (h : storeBytes n rs1 rs2 imm s = .next t) :
    WriteFrame n (effectiveAddress rs1 imm s) s t ∧ (∀ r, t.readReg r = s.readReg r) ∧ t.resv = s.resv ∧
      ((∀ a ∈ accessBytes (effectiveAddress rs1 imm s) n, route s.cfg a ≠ .ram) → t.mem = s.mem) := by
  obtain rfl := Host.Outcome.next.inj h
  refine ⟨(memWrite_frame ..).trans (.of_same _ _ (setPc_same _ _)), fun r => ?_, ?_, memWrite_mem_of_route⟩
  · rw [advance_readReg, readReg_congr s _ (memWrite_regs ..)]
  · rw [advance_resv, memWrite_resv]

theorem amo_frame {op : Word → Word → Word} (h : amo op rd rs1 rs2 s = .next t) :
    WriteFrame 4 (atomicAddress rs1 s) s t ∧ (∀ r, r ≠ rd → t.readReg r = s.readReg r) ∧ t.resv = s.resv := by
  obtain rfl := Host.Outcome.next.inj h
  refine ⟨((memRead_frame ..).trans (memWrite_frame ..)).trans (.of_same _ _ (finish_same ..)),
    fun r hr => finish_readReg_of_ne ?_ hr _, ?_⟩
  · rw [memWrite_regs, memRead_regs]
  · rw [finish_resv, memWrite_resv, memRead_resv]

/-- R330's success test. -/
theorem scSucceeds_iff (ea : Word) (s : State) :
    scSucceeds ea s = true ↔ s.resv = true ∧ (s.cfg.scAddressCheck = true → s.resvAddr = ea) := by
  rw [scSucceeds, Bool.and_eq_true, Bool.or_eq_true, Bool.not_eq_true', beq_iff_eq]
  cases s.cfg.scAddressCheck <;> simp

theorem execScW_of_success (h : scSucceeds (s.readReg rs1) s = true) :
    execScW rd rs1 rs2 s =
      .next ((memWrite 4 (s.readReg rs1) (s.readReg rs2) s.clearReservation).finish rd 0#32) := if_pos h

theorem execScW_of_failure (h : ¬ scSucceeds (s.readReg rs1) s = true) :
    execScW rd rs1 rs2 s = .next (s.clearReservation.finish rd 1#32) := if_neg h

theorem execScW_frame (h : execScW rd rs1 rs2 s = .next t) :
    WriteFrame 4 (atomicAddress rs1 s) s t ∧ (∀ r, r ≠ rd → t.readReg r = s.readReg r) := by
  by_cases hs : scSucceeds (s.readReg rs1) s = true
  · rw [execScW_of_success hs] at h
    obtain rfl := Host.Outcome.next.inj h
    exact ⟨((clearReservation_frame ..).trans (memWrite_frame ..)).trans (.of_same _ _ (finish_same ..)),
      fun r hr => finish_readReg_of_ne (memWrite_regs ..) hr _⟩
  · rw [execScW_of_failure hs] at h
    obtain rfl := Host.Outcome.next.inj h
    exact ⟨(clearReservation_frame ..).trans (.of_same _ _ (finish_same ..)),
      fun r hr => finish_readReg_of_ne rfl hr _⟩

end

/-! ## The results of 44_atomic.md -/

section
variable {rd rs1 rs2 : RegIdx} {s : State}

theorem memRead_fst (n : Nat) (a : Word) (s : State) :
    (memRead n a s).1 = BitVec.ofNat 32 (leNat (readBytes n a s).1) := by
  rw [memRead_eq_readBytes]

theorem memRead_snd (n : Nat) (a : Word) (s : State) : (memRead n a s).2 = (readBytes n a s).2 := by
  rw [memRead_eq_readBytes]

/-- R331. -/
theorem lr_result (rd rs1 : RegIdx) (s : State) :
    ∃ t, exec (.lrW rd rs1) s = .next t ∧
      RegWrite rd (BitVec.ofNat 32 (leNat (readBytes 4 (s.readReg rs1) s).1)) s t ∧ t.pc = s.pc + 4#32 ∧
      SameBeyondRegs
        { (readBytes 4 (s.readReg rs1) s).2 with
          resv := true, resvAddr := if s.cfg.scAddressCheck = true then s.readReg rs1 else s.resvAddr } t := by
  refine ⟨_, exec_lrW .., ?_, ?_, ?_⟩
  · rw [← memRead_fst]
    exact finish_regWrite_of_regs_eq ((reserve_regs ..).trans (memRead_regs ..)) rd _
  · rw [finish_pc, reserve_pc, memRead_pc]
  · rw [← memRead_snd, ← memRead_cfg 4 (s.readReg rs1) s, ← memRead_resvAddr 4 (s.readReg rs1) s]
    exact finish_same _ rd _

/-- R332, the success test passed. -/
theorem sc_success_result (rd rs2 : RegIdx)
    (h : s.resv = true ∧ (s.cfg.scAddressCheck = true → s.resvAddr = s.readReg rs1)) :
    ∃ t, exec (.scW rd rs1 rs2) s = .next t ∧ RegWrite rd 0#32 s t ∧ t.pc = s.pc + 4#32 ∧
      SameBeyondRegs (writeBytes 4 (s.readReg rs1) (s.readReg rs2) { s with resv := false }) t := by
  refine ⟨_, (exec_scW ..).trans (execScW_of_success ((scSucceeds_iff ..).mpr h)), ?_, ?_, ?_⟩
  · exact finish_regWrite_of_regs_eq (memWrite_regs ..) rd _
  · rw [finish_pc, memWrite_pc, clearReservation_pc]
  · rw [← memWrite_eq_writeBytes]
    exact finish_same _ rd _

/-- R332, the success test failed. -/
theorem sc_failure_result (rd rs2 : RegIdx)
    (h : ¬ (s.resv = true ∧ (s.cfg.scAddressCheck = true → s.resvAddr = s.readReg rs1))) :
    ∃ t, exec (.scW rd rs1 rs2) s = .next t ∧ RegWrite rd 1#32 s t ∧ t.pc = s.pc + 4#32 ∧
      SameBeyondRegs { s with resv := false } t := by
  refine ⟨_, (exec_scW ..).trans (execScW_of_failure (mt (scSucceeds_iff ..).mp h)), ?_, ?_, ?_⟩
  · exact finish_regWrite_of_regs_eq (t := s.clearReservation) rfl rd _
  · rw [finish_pc, clearReservation_pc]
  · exact finish_same _ rd _

/-- R333: an AMO with any spelling of its operation. -/
theorem amoResult_of_amo {i : Instr} {op op' : Word → Word → Word} (h : exec i s = amo op' rd rs1 rs2 s)
    (hop : ∀ a b, op' a b = op a b) : AmoResult i rd (s.readReg rs1) (s.readReg rs2) op s := by
  refine ⟨_, h, ?_, ?_, ?_⟩
  · rw [← memRead_fst]
    exact finish_regWrite_of_regs_eq ((memWrite_regs ..).trans (memRead_regs ..)) rd _
  · rw [finish_pc, memWrite_pc, memRead_pc]
  · rw [← memRead_fst, ← memRead_snd, ← memWrite_eq_writeBytes, ← hop]
    exact finish_same _ rd _

end

/-- A choice between two words, by a test and by its negation. -/
theorem ite_eq_ite_not {p q : Prop} [Decidable p] [Decidable q] (h : p ↔ ¬ q) (a b : Word) :
    (if p then b else a) = if q then a else b := by
  by_cases hq : q
  · rw [if_pos hq, if_neg fun hp => h.mp hp hq]
  · rw [if_neg hq, if_pos (h.mpr hq)]

/-! ## The reservation (R330, R343) -/

/-- The shapes of an instruction keep the reservation, but that of `lr.w` and the two of `sc.w`. -/
theorem exec_resv_cases {i : Instr} {s t : State} (h : exec i s = .next t) :
    (t.resv = s.resv ∧ t.resvAddr = s.resvAddr) ∨ ((∃ x y, i = .lrW x y) ∧ t.resv = true) ∨
      ((∃ x y z, i = .scW x y z) ∧ t.resv = false) := by
  cases exec_cases i s t h with
  | lr a r pc ra hr hi => exact .inr (.inl ⟨hi, rfl⟩)
  | scSuccess a v r pc hr hi =>
    refine .inr (.inr ⟨hi, ?_⟩)
    simp only [memWrite_resv, clearReservation_resv]
  | scFailure r pc hr hi => exact .inr (.inr ⟨hi, rfl⟩)
  | trap e => exact .inl ⟨trapEntry_resv .., trapEntry_resvAddr ..⟩
  | load n a => exact .inl ⟨memRead_resv n a s, memRead_resvAddr n a s⟩
  | store n a v => exact .inl ⟨memWrite_resv n a v s, memWrite_resvAddr n a v s⟩
  | amo a v =>
    refine .inl ⟨?_, ?_⟩
    · simp only [memWrite_resv, memRead_resv]
    · simp only [memWrite_resvAddr, memRead_resvAddr]
  | regs | halt | csr | mret | sret | wfi => exact .inl ⟨rfl, rfl⟩

@[simp] theorem endStep_resv (s : State) : (endStep s).resv = s.resv := by
  by_cases h : s.run = .running
  · rw [endStep_of_running h, sampleInterrupts_resv]
  · rw [endStep_of_not_running h]

/-- A step keeps the reservation flag unless its instruction is `lr.w` or `sc.w`. -/
theorem step_resv_cases {s t : State} (h : step s = .next t) :
    t.resv = s.resv ∨ ((∃ x y, decodeWord (fetch (timeStep s)).1 = .ok (.lrW x y)) ∧ t.resv = true) ∨
      ((∃ x y z, decodeWord (fetch (timeStep s)).1 = .ok (.scW x y z)) ∧ t.resv = false) := by
  have hbefore : (fetch (timeStep s)).2.resv = s.resv := beforeExec_resv s
  obtain ⟨-, rfl⟩ | ⟨-, ⟨e, -, rfl⟩ | ⟨i, u, hd, he, rfl⟩⟩ := step_cases h
  · exact .inl rfl
  · exact .inl hbefore
  · rw [endStep_resv]
    obtain ⟨hkept, -⟩ | ⟨⟨x, y, rfl⟩, hset⟩ | ⟨⟨x, y, z, rfl⟩, hclear⟩ := exec_resv_cases he
    · exact .inl (hkept.trans hbefore)
    · exact .inr (.inl ⟨⟨x, y, hd⟩, hset⟩)
    · exact .inr (.inr ⟨⟨x, y, z, hd⟩, hclear⟩)

end Sys2Proof.Machine

open Sys2Proof Sys2Proof.Machine

/-- Settles O20: the five loads are `loadWith`, whose read can change the UART and the PLIC alone. -/
theorem loadFrame : Obligations.LoadFrame := by
  intro i rd rs1 imm n ea s t hi h
  have key : ReadFrame rd n ea s t ∧ (i ≠ .lrW rd rs1 → t.resv = s.resv ∧ t.resvAddr = s.resvAddr) := by
    simp only [List.mem_cons, List.not_mem_nil, or_false, Prod.mk.injEq] at hi
    obtain ⟨rfl, rfl, rfl⟩ | ⟨rfl, rfl, rfl⟩ | ⟨rfl, rfl, rfl⟩ | ⟨rfl, rfl, rfl⟩ | ⟨rfl, rfl, rfl⟩ |
      ⟨rfl, rfl, rfl⟩ := hi
    case inr.inr.inr.inr.inr => exact ⟨execLrW_frame ((exec_lrW ..).symm.trans h), fun hn => absurd rfl hn⟩
    all_goals
      simp only [exec_lb, exec_lbu, exec_lh, exec_lhu, exec_lw] at h
      exact (loadWith_frame h).imp_right fun hr _ => hr
  obtain ⟨hframe, hresv⟩ := key
  exact ⟨fun a => by rw [hframe.mem], fun o => by rw [hframe.fb], hframe.regs, hframe.clint, hframe.csr, hframe.mode,
    hframe.run, hframe.cfg, hframe.timeSource, hresv, hframe.devices⟩

/-- Settles O21: the three stores are `storeBytes`, and each byte of its write changes what its route names. -/
theorem storeFrame : Obligations.StoreFrame := by
  intro i rs1 rs2 imm n s t hi h
  have key : storeBytes n rs1 rs2 imm s = .next t := by
    simp only [List.mem_cons, List.not_mem_nil, or_false, Prod.mk.injEq] at hi
    obtain ⟨rfl, rfl⟩ | ⟨rfl, rfl⟩ | ⟨rfl, rfl⟩ := hi <;> simpa only [exec_sb, exec_sh, exec_sw] using h
  obtain ⟨hframe, hregs, hresv, hmem⟩ := storeBytes_frame key
  exact ⟨hframe.mem, hregs, hframe.csr, hframe.mode, hframe.run, hframe.cfg, hresv, hframe.resvAddr, hframe.timeSource,
    hframe.clint, hframe.plic, hframe.uart, hframe.fb, hmem⟩

/-- Settles O22: the nine AMOs are one template, and a failing `sc.w` only clears the reservation. -/
theorem atomicStoreFrame : Obligations.AtomicStoreFrame := by
  intro i rd rs1 rs2 s t hi h
  have key : WriteFrame 4 (atomicAddress rs1 s) s t ∧ (∀ r, r ≠ rd → t.readReg r = s.readReg r) ∧
      (i ≠ .scW rd rs1 rs2 → t.resv = s.resv) := by
    rcases List.mem_cons.mp hi with rfl | hamo
    · obtain ⟨hframe, hregs⟩ := execScW_frame ((exec_scW ..).symm.trans h)
      exact ⟨hframe, hregs, fun hn => absurd rfl hn⟩
    · have : ∃ op, amo op rd rs1 rs2 s = .next t := by
        simp only [List.mem_cons, List.not_mem_nil, or_false] at hamo
        obtain rfl | rfl | rfl | rfl | rfl | rfl | rfl | rfl | rfl := hamo
        all_goals
          simp only [exec_amoswapW, exec_amoaddW, exec_amoxorW, exec_amoandW, exec_amoorW, exec_amominW, exec_amomaxW,
            exec_amominuW, exec_amomaxuW] at h
          exact ⟨_, h⟩
      obtain ⟨op, hop⟩ := this
      obtain ⟨hframe, hregs, hresv⟩ := amo_frame hop
      exact ⟨hframe, hregs, fun _ => hresv⟩
  obtain ⟨hframe, hregs, hresv⟩ := key
  refine ⟨hframe.mem, hregs, hframe.csr, hframe.mode, hframe.run, hframe.cfg, hframe.timeSource, hframe.resvAddr, hresv,
    hframe.clint, hframe.plic, hframe.uart, hframe.fb, ?_⟩
  rintro rfl hfail
  rw [exec_scW, execScW_of_failure (mt (scSucceeds_iff _ s).mp hfail)] at h
  obtain rfl := Host.Outcome.next.inj h
  exact ⟨finish_mem .., finish_uart .., finish_clint .., finish_plic .., finish_fb ..⟩

/-- Settles O24: a byte written to RAM stays, since the later bytes of the access have other addresses. -/
theorem storeThenReadGivesTheBytes : Obligations.StoreThenReadGivesTheBytes := by
  intro i rs1 rs2 imm n s t hi hwf hram h k hk
  have key : storeBytes n rs1 rs2 imm s = .next t ∧ n ≤ 4 := by
    simp only [List.mem_cons, List.not_mem_nil, or_false, Prod.mk.injEq] at hi
    obtain ⟨rfl, rfl⟩ | ⟨rfl, rfl⟩ | ⟨rfl, rfl⟩ := hi <;>
      simpa [exec_sb, exec_sh, exec_sw] using h
  obtain ⟨hstore, hn⟩ := key
  obtain rfl := Host.Outcome.next.inj hstore
  rw [advance_mem, memWrite_mem_read_byte (by omega) hwf hram hk, BitVec.toNat_setWidth, BitVec.toNat_ushiftRight,
    Nat.shiftRight_eq_div_pow]

/-- Settles O28: the read and the write are the loops of R103 and R104; the success test is R330's. -/
theorem reservationInstructionResults : Obligations.ReservationInstructionResults :=
  ⟨encodes_lr, encodes_sc, fun rd rs1 rs2 s =>
    ⟨lr_result rd rs1 s, fun h => sc_success_result rd rs2 h, fun h => sc_failure_result rd rs2 h⟩⟩

/-- Settles O29: the nine AMOs are one template; the minima and maxima test the other order, strictly. -/
theorem amoResults : Obligations.AmoResults := by
  refine ⟨encodes_amos, fun rd rs1 rs2 s => ?_⟩
  refine ⟨amoResult_of_amo (exec_amoswapW ..) fun _ _ => rfl, amoResult_of_amo (exec_amoaddW ..) add_eq_ofNat,
    amoResult_of_amo (exec_amoxorW ..) fun _ _ => rfl, amoResult_of_amo (exec_amoandW ..) fun _ _ => rfl,
    amoResult_of_amo (exec_amoorW ..) fun _ _ => rfl,
    amoResult_of_amo (exec_amominW ..) fun a b => ite_eq_ite_not ?_ a b,
    amoResult_of_amo (exec_amomaxW ..) fun a b => ite_eq_ite_not ?_ a b,
    amoResult_of_amo (exec_amominuW ..) fun a b => ite_eq_ite_not ?_ a b,
    amoResult_of_amo (exec_amomaxuW ..) fun a b => ite_eq_ite_not ?_ a b⟩
  · rw [lessSigned_iff, Int.not_le]
  · rw [lessSigned_iff, Int.not_le]
  · rw [lessUnsigned_iff, Nat.not_le]
  · rw [lessUnsigned_iff, Nat.not_le]

/-- Settles O23: the shapes an instruction that stores nothing and loads nothing can have. -/
theorem nonStoringFrame : Obligations.NonStoringFrame := by
  intro i s t hstore hload h
  have kept : t.regs = s.regs → ∀ r, destination i ≠ some r → t.readReg r = s.readReg r :=
    fun e r _ => readReg_congr s t e r
  cases exec_cases i s t h with
  | regs r pc hr =>
    exact ⟨fun _ => rfl, rfl, rfl, rfl, rfl, rfl, rfl, rfl, rfl, fun _ => rfl, fun _ => rfl, fun _ => rfl,
      fun _ _ => rfl, fun r hne => oneRegWrite_readReg hr r hne⟩
  | trap e hw hc hi =>
    exact ⟨by simp, by simp, by simp, by simp, by simp, by simp, by simp, by simp, by simp, by simp, by simp [hc],
      by simp [hc, hi], by simp, kept (by simp)⟩
  | halt reason hi =>
    exact ⟨fun _ => rfl, rfl, rfl, rfl, rfl, rfl, rfl, rfl, rfl, fun _ => rfl, fun _ => rfl, fun _ => rfl,
      fun hc hb => (hi.elim hc hb).elim, kept rfl⟩
  | load n a r pc hr hi =>
    cases i with
    | lb rd rs1 imm => exact absurd rfl (hload rd rs1 imm).1
    | lh rd rs1 imm => exact absurd rfl (hload rd rs1 imm).2.1
    | lw rd rs1 imm => exact absurd rfl (hload rd rs1 imm).2.2.1
    | lbu rd rs1 imm => exact absurd rfl (hload rd rs1 imm).2.2.2.1
    | lhu rd rs1 imm => exact absurd rfl (hload rd rs1 imm).2.2.2.2.1
    | _ => cases hi
  | lr a r pc ra hr hi =>
    obtain ⟨x, y, rfl⟩ := hi
    exact absurd rfl (hload x y 0#12).2.2.2.2.2
  | store n a v r pc hr hw => simp [hw] at hstore
  | amo a v r pc hr hw => simp [hw] at hstore
  | scSuccess a v r pc hr hi =>
    obtain ⟨x, y, z, rfl⟩ := hi
    cases hstore
  | scFailure r pc hr hi =>
    obtain ⟨x, y, z, rfl⟩ := hi
    cases hstore
  | csr c v r pc hr hc hi =>
    refine ⟨fun _ => rfl, rfl, rfl, rfl, rfl, rfl, rfl, rfl, rfl, fun _ => rfl, by simp [hi], fun _ => rfl,
      fun _ _ => rfl, fun r hne => oneRegWrite_readReg hr r hne⟩
  | mret hi =>
    subst hi
    exact ⟨fun _ => rfl, rfl, rfl, rfl, rfl, rfl, rfl, rfl, rfl, fun _ => rfl, nofun, nofun, fun _ _ => rfl, kept rfl⟩
  | sret hi =>
    subst hi
    exact ⟨fun _ => rfl, rfl, rfl, rfl, rfl, rfl, rfl, rfl, rfl, fun _ => rfl, nofun, nofun, fun _ _ => rfl, kept rfl⟩
  | wfi pc hi =>
    subst hi
    exact ⟨fun _ => rfl, rfl, rfl, rfl, rfl, rfl, rfl, rfl, rfl, fun h => absurd rfl h, nofun, fun _ => rfl,
      fun _ _ => rfl, kept rfl⟩

/-- Settles O30: of the shapes of an instruction, three change the reservation; what a step adds keeps it. -/
theorem onlyLrAndScTouchTheReservation : Obligations.OnlyLrAndScTouchTheReservation := by
  refine ⟨fun i s t hi h => ?_, fun s t h hset hsc => ?_, fun s t h hclear hlr => ?_⟩
  · obtain hkept | ⟨⟨x, y, rfl⟩, -⟩ | ⟨⟨x, y, z, rfl⟩, -⟩ := exec_resv_cases h
    · exact hkept
    · cases hi
    · cases hi
  · obtain hkept | ⟨-, hset'⟩ | ⟨⟨x, y, z, hd⟩, -⟩ := step_resv_cases h
    · exact hkept.trans hset
    · exact hset'
    · exact absurd hd (hsc x y z)
  · obtain hkept | ⟨⟨x, y, hd⟩, -⟩ | ⟨-, hclear'⟩ := step_resv_cases h
    · exact hkept.trans hclear
    · exact absurd hd (hlr x y)
    · exact hclear'
end

section
/-!
Traps, trap returns and interrupts: the bits trap entry and the returns write, the rule of the global enable, the order
of the sampling, and what changes the mode (45_system.md sections 2 to 4, 60_exceptions.md sections 1 to 6).
-/

namespace Sys2Proof.Machine

/-! ## Bits of `mstatus` and `mip` -/

/-- MPP, bits 12:11. -/
theorem getLsbD_insertBits_mpp (v : Word) (x : BitVec 2) {k : Nat} (hk : k < 32) :
    (insertBits v 11 x).getLsbD k =
      if k = 11 then x.getLsbD 0 else if k = 12 then x.getLsbD 1 else v.getLsbD k := by
  rw [getLsbD_insertBits]
  by_cases h11 : k = 11
  · subst h11; rfl
  · by_cases h12 : k = 12
    · subst h12; rfl
    · rw [if_neg (by omega), if_neg h11, if_neg h12]

theorem getLsbD_setBit_word (v : Word) {j : Nat} (hj : j < 32) (b : Bool) (k : Nat) :
    (setBit v j b).getLsbD k = if k = j then b else v.getLsbD k := by
  rw [getLsbD_setBit]
  simp only [hj, and_true]

/-- R404, target M. -/
theorem getLsbD_mstatusTrapM (stackIe : Bool) (m : Mode) (v : Word) {k : Nat} (hk : k < 32) :
    (mstatusTrapM stackIe m v).getLsbD k =
      if k = 11 then m.bits.getLsbD 0 else if k = 12 then m.bits.getLsbD 1
      else if k = 7 ∧ stackIe = true then v.getLsbD 3 else if k = 3 ∧ stackIe = true then false else v.getLsbD k := by
  cases stackIe with
  | false =>
    change (insertBits v 11 m.bits).getLsbD k = _
    simp [getLsbD_insertBits_mpp v m.bits hk]
  | true =>
    change (setBit (setBit (insertBits v 11 m.bits) 7 ((insertBits v 11 m.bits).getLsbD 3)) 3 false).getLsbD k = _
    rw [getLsbD_setBit_word _ (by decide), getLsbD_setBit_word _ (by decide), getLsbD_insertBits_mpp _ _ hk,
      getLsbD_insertBits_mpp v m.bits (k := 3) (by decide)]
    grind

/-- R404, target S. -/
theorem getLsbD_mstatusTrapS (stackIe : Bool) (m : Mode) (v : Word) (k : Nat) :
    (mstatusTrapS stackIe m v).getLsbD k =
      if k = 8 then decide (m ≠ .user) else if k = 5 ∧ stackIe = true then v.getLsbD 1
      else if k = 1 ∧ stackIe = true then false else v.getLsbD k := by
  have hspp : (m != .user) = decide (m ≠ .user) := by cases m <;> rfl
  cases stackIe with
  | false =>
    change (setBit v 8 (m != .user)).getLsbD k = _
    simp [getLsbD_setBit_word v (j := 8) (by decide), hspp]
  | true =>
    change (setBit (setBit (setBit v 8 (m != .user)) 5 ((setBit v 8 (m != .user)).getLsbD 1)) 1 false).getLsbD k = _
    have hsie : (setBit v 8 (m != .user)).getLsbD 1 = v.getLsbD 1 := getLsbD_setBit_word v (by decide) _ 1
    rw [hsie, getLsbD_setBit_word _ (by decide), getLsbD_setBit_word _ (by decide),
      getLsbD_setBit_word _ (by decide), hspp]
    grind

/-- R367. -/
theorem getLsbD_mstatusMret (v : Word) {k : Nat} (hk : k < 32) :
    (mstatusMret v).getLsbD k =
      if k = 3 then v.getLsbD 7 else if k = 7 then true else if k = 11 ∨ k = 12 then false else v.getLsbD k := by
  change (insertBits (setBit (setBit v 3 (v.getLsbD 7)) 7 true) 11 (0#2)).getLsbD k = _
  rw [getLsbD_insertBits_mpp _ _ hk, getLsbD_setBit_word _ (by decide), getLsbD_setBit_word _ (by decide)]
  grind

/-- R368. -/
theorem getLsbD_mstatusSret (v : Word) (k : Nat) :
    (mstatusSret v).getLsbD k =
      if k = 1 then v.getLsbD 5 else if k = 5 then true else if k = 8 then false else v.getLsbD k := by
  change (setBit (setBit (setBit v 1 (v.getLsbD 5)) 5 true) 8 false).getLsbD k = _
  rw [getLsbD_setBit_word _ (by decide), getLsbD_setBit_word _ (by decide), getLsbD_setBit_word _ (by decide)]
  grind

/-- R421. -/
theorem getLsbD_mipWithLevels (mip : Word) (msip mtip seip : Bool) (k : Nat) :
    (mipWithLevels mip msip mtip seip).getLsbD k =
      if k = 3 then msip else if k = 7 then mtip else if k = 9 then seip else if k = 11 then false
      else mip.getLsbD k := by
  rw [mipWithLevels, getLsbD_setBit_word _ (by decide), getLsbD_setBit_word _ (by decide),
    getLsbD_setBit_word _ (by decide), getLsbD_setBit_word _ (by decide)]
  grind

/-- A vector's base is the multiple of 4 below it (R405). -/
theorem trapBase_eq (v : Word) : trapBase v = BitVec.ofNat 32 (v.toNat / 4 * 4) := by
  have h : trapBase v = (v >>> 2) <<< 2 := by
    apply BitVec.eq_of_getLsbD_eq
    intro i hi
    rw [trapBase, BitVec.getLsbD_and, BitVec.getLsbD_not, BitVec.getLsbD_shiftLeft, BitVec.getLsbD_ushiftRight]
    rcases i with _ | _ | i
    · simp
    · simp
    · have hbit : (3#32).getLsbD (i + 2) = false := by
        simp [BitVec.getLsbD_ofNat, Nat.testBit_succ]
      have hplace : 2 + (i + 2 - 2) = i + 2 := by omega
      rw [hbit, hplace]
      simp [hi]
  apply BitVec.eq_of_toNat_eq
  rw [h, BitVec.toNat_shiftLeft, BitVec.toNat_ushiftRight, BitVec.toNat_ofNat, Nat.shiftRight_eq_div_pow,
    Nat.shiftLeft_eq]

/-! ## The target of a trap (R401) -/

theorem supervisor_not_lt_iff (m : Mode) : (!Mode.supervisor.lt m) = true ↔ m = .user ∨ m = .supervisor := by
  cases m <;> decide

theorem trapTarget_eq_supervisor_iff (c : TrapCause) (s : State) :
    trapTarget c s = .supervisor ↔
      delegationBit c s = true ∧ (s.cfg.delegFromM = true ∨ s.mode = .user ∨ s.mode = .supervisor) := by
  rw [← supervisor_not_lt_iff, ← Bool.or_eq_true, ← Bool.and_eq_true, trapTarget]
  split <;> simp [*]

theorem trapTarget_eq_machine_of_not {c : TrapCause} {s : State} (h : trapTarget c s ≠ .supervisor) :
    trapTarget c s = .machine := (trapTarget_cases c s).resolve_left h

theorem exceptionCode_lt (e : Exception) : e.code < 16 := by
  rcases e with _ | _ | m
  · decide
  · decide
  · cases m <;> decide

theorem toNat_word_exception (e : Exception) : (TrapCause.exception e).word.toNat = e.code := by
  rw [TrapCause.word, BitVec.toNat_ofNat]
  exact Nat.mod_eq_of_lt (Nat.lt_trans (exceptionCode_lt e) (by decide))

theorem toNat_word_interrupt (i : Interrupt) : (TrapCause.interrupt i).word.toNat = 2 ^ 31 + i.code := by
  cases i <;> decide

/-! ## Trap entry (R400) -/

/-- `mip` after the consumed interrupt's bit is cleared (R406). -/
def mipAfterTrap (c : TrapCause) (mip : Word) : Word :=
  match c with
  | .exception _ => mip
  | .interrupt i => setBit mip i.code false

theorem getLsbD_mipAfterTrap (c : TrapCause) (mip : Word) (k : Nat) :
    (mipAfterTrap c mip).getLsbD k =
      match c with
      | .exception _ => mip.getLsbD k
      | .interrupt i => if k = i.code then false else mip.getLsbD k := by
  cases c with
  | exception e => rfl
  | interrupt i => exact getLsbD_setBit_word _ (by cases i <;> decide) _ _

theorem trapEntry_of_machine {c : TrapCause} {s : State} (h : trapTarget c s = .machine) (epc : Word) :
    trapEntry c epc s =
      { s with
        pc := trapBase s.csr.mtvec, mode := .machine,
        csr := { s.csr with
          mepc := epc, mcause := c.word, mstatus := mstatusTrapM s.cfg.trapStacksIe s.mode s.csr.mstatus,
          mip := mipAfterTrap c s.csr.mip } } := by
  rw [trapEntry, h, if_neg (by decide)]
  cases c <;> rfl

theorem trapEntry_of_supervisor {c : TrapCause} {s : State} (h : trapTarget c s = .supervisor) (epc : Word) :
    trapEntry c epc s =
      { s with
        pc := trapBase s.csr.stvec, mode := .supervisor,
        csr := { s.csr with
          sepc := epc, scause := c.word, mstatus := mstatusTrapS s.cfg.trapStacksIe s.mode s.csr.mstatus,
          mip := mipAfterTrap c s.csr.mip } } := by
  rw [trapEntry, h, if_pos rfl]
  cases c <;> rfl

/-! ## Sampling (R420 to R425) -/

theorem interruptReady_iff (i : Interrupt) (s : State) :
    interruptReady i s = true ↔
      s.csr.mip.getLsbD i.code = true ∧ s.csr.mie.getLsbD i.code = true ∧ globallyEnabled i s = true := by
  rw [interruptReady, Bool.and_eq_true, Bool.and_eq_true, and_assoc]

/-- The place of an interrupt in the order of R423. -/
def interruptRank (i : Interrupt) : Nat := [11, 3, 7, 9, 1, 5].idxOf i.code

theorem interruptOrder_split (i : Interrupt) :
    interruptOrder = interruptOrder.take (interruptRank i) ++ i :: interruptOrder.drop (interruptRank i + 1) := by
  cases i <;> rfl

theorem interruptRank_lt_of_mem_take (i : Interrupt) :
    ∀ j ∈ interruptOrder.take (interruptRank i), interruptRank j < interruptRank i := by
  cases i <;> decide

/-- The first ready interrupt is the ready one of least rank. -/
theorem sampleInterrupts_of_first {s : State} {i : Interrupt} (hi : interruptReady i (updatePending s) = true)
    (hfirst : ∀ j, interruptReady j (updatePending s) = true → interruptRank i ≤ interruptRank j) :
    sampleInterrupts s = trapEntry (.interrupt i) (updatePending s).pc (updatePending s) := by
  have hfind : interruptOrder.find? (fun j => interruptReady j (updatePending s)) = some i := by
    refine List.find?_eq_some_iff_append.mpr ⟨hi, _, _, interruptOrder_split i, fun j hj => ?_⟩
    rw [Bool.not_eq_true', Bool.eq_false_iff]
    exact fun hready => Nat.not_lt.mpr (hfirst j hready) (interruptRank_lt_of_mem_take i j hj)
  rw [sampleInterrupts, takeInterrupt, hfind]

theorem sampleInterrupts_of_none {s : State} (h : ∀ i, ¬ interruptReady i (updatePending s) = true) :
    sampleInterrupts s = updatePending s := by
  rcases sampleInterrupts_cases s with e | ⟨i, hi, -⟩
  · exact e
  · exact absurd hi (h i)

/-- R422. -/
theorem globallyEnabled_iff (i : Interrupt) (s : State) :
    globallyEnabled i s = true ↔
      (s.mode.bits.toNat < (trapTarget (.interrupt i) s).bits.toNat ∨
        (s.mode = .machine ∧ trapTarget (.interrupt i) s = .machine ∧ s.csr.mstatus.getLsbD 3 = true) ∨
        (s.mode = .supervisor ∧ trapTarget (.interrupt i) s = .supervisor ∧ s.csr.mstatus.getLsbD 1 = true)) := by
  rw [globallyEnabled, ← mode_lt_iff]
  rcases trapTarget_cases (.interrupt i) s with h | h
  · rw [h]
    cases s.mode <;> simp [Mode.lt, Mode.bits, mstatusSie]
  · rw [h]
    cases s.mode <;> simp [Mode.lt, Mode.bits, mstatusMie]

/-! ## The mode (R36, R410) -/

/-- An instruction that returns from no trap keeps the mode or takes an exception. -/
theorem exec_mode_cases {i : Instr} {s t : State} (hi : isTrapReturn i = false) (h : exec i s = .next t) :
    t.mode = s.mode ∨ ∃ e, t = trapEntry (.exception e) s.pc s := by
  cases exec_cases i s t h with
  | trap e => exact .inr ⟨e, rfl⟩
  | load | lr | store | amo | scSuccess =>
    left
    simp only [memWrite_mode, memRead_mode, clearReservation_mode]
  | regs | halt | scFailure | csr | wfi => exact .inl rfl
  | mret he => subst he; cases hi
  | sret he => subst he; cases hi

theorem bits_returnFromMachine (s : State) :
    (returnFromMachine s).mode.bits.toNat = s.csr.mstatus.toNat / 2 ^ 11 % 2 ^ 2 := by
  rw [returnFromMachine_mode, bits_ofBits, mstatusMpp, BitVec.extractLsb'_toNat, Nat.shiftRight_eq_div_pow]

theorem bits_returnFromSupervisor (s : State) :
    (returnFromSupervisor s).mode.bits.toNat = s.csr.mstatus.toNat / 2 ^ 8 % 2 := by
  rw [returnFromSupervisor_mode, mstatusSpp, BitVec.getLsbD, Nat.testBit_eq_decide_div_mod_eq]
  rcases Nat.mod_two_eq_zero_or_one (s.csr.mstatus.toNat / 2 ^ 8) with h | h <;> rw [h] <;> rfl

/-- Only `mret` enters mode 2 (R36): trap entry goes to M or S, and `sret` to S or U. -/
theorem exec_hypervisor {i : Instr} {s t : State} (h : exec i s = .next t) (ht : t.mode = .hypervisor)
    (hs : s.mode ≠ .hypervisor) : i = .mret ∧ s.csr.mstatus.toNat / 2 ^ 11 % 2 ^ 2 = 2 := by
  have htrap : ∀ c epc, (trapEntry c epc s).mode ≠ .hypervisor := by
    intro c epc
    rw [trapEntry_mode]
    rcases trapTarget_cases c s with e | e <;> rw [e] <;> decide
  cases exec_cases i s t h with
  | mret hi =>
    refine ⟨hi, ?_⟩
    rw [← bits_returnFromMachine, ht]
    rfl
  | sret hi =>
    rw [returnFromSupervisor_mode] at ht
    split at ht <;> cases ht
  | trap e => exact absurd ht (htrap _ _)
  | load | lr | store | amo | scSuccess =>
    simp only [memWrite_mode, memRead_mode, clearReservation_mode] at ht
    exact absurd ht hs
  | regs | halt | scFailure | csr | wfi => exact absurd ht hs

theorem endStep_hypervisor {s : State} (h : (endStep s).mode = .hypervisor) : s.mode = .hypervisor := by
  by_cases hrun : s.run = .running
  · rw [endStep_of_running hrun] at h
    rcases sampleInterrupts_cases s with e | ⟨i, -, e⟩
    · rwa [e] at h
    · rw [e, trapEntry_mode] at h
      rcases trapTarget_cases (.interrupt i) (updatePending s) with e' | e' <;> rw [e'] at h <;> cases h
  · rwa [endStep_of_not_running hrun] at h

/-- A word has a set bit exactly when it is not 0. -/
theorem ne_zero_iff_exists_getLsbD (v : Word) : v ≠ 0#32 ↔ ∃ k < 32, v.getLsbD k = true := by
  constructor
  · intro h
    by_contra hno
    push Not at hno
    refine h (BitVec.eq_of_getLsbD_eq fun k hk => ?_)
    rw [Bool.eq_false_iff.mpr (hno k hk), BitVec.getLsbD_zero]
  · rintro ⟨k, -, hk⟩ rfl
    simp at hk

theorem next_pc_eq (s : State) : s.advance = { s with pc := BitVec.ofNat 32 (s.pc.toNat + 4) } := by
  have h : s.pc + 4#32 = BitVec.ofNat 32 (s.pc.toNat + 4) := add_eq_ofNat s.pc 4#32
  rw [← h]
  rfl

end Sys2Proof.Machine

open Sys2Proof Sys2Proof.Machine

/-- Settles O37: `ecall` and `ebreak` are a choice by the parameters. -/
theorem ecallAndEbreakResults : Obligations.EcallAndEbreakResults := by
  refine ⟨encodes_ecall, encodes_ebreak, fun s => ?_⟩
  intro a0 next
  refine ⟨fun hself ha => ?_, fun hself h0 h42 => ?_, fun hself htraps => ?_, fun hself htraps => ?_, fun hmode => ?_,
    fun hmode => ?_, fun hmode => ?_⟩
  · rw [exec_ecall, execEcall, if_pos hself, selfTestReason, if_pos ha]
    rfl
  · rw [exec_ecall, execEcall, if_pos hself, selfTestReason, if_neg (not_or.mpr ⟨h0, h42⟩)]
    rfl
  · rw [Takes, exec_ecall, execEcall, if_neg (by simp [hself]), if_pos htraps]
    rfl
  · rw [SetsPcOnly, exec_ecall, execEcall, if_neg (by simp [hself]), if_neg (by simp [htraps]), next_pc_eq]
  · rw [SetsPcOnly, exec_ebreak, execEbreak, hmode, next_pc_eq]
  · rw [Takes, exec_ebreak, execEbreak, hmode]
    rfl
  · rw [exec_ebreak, execEbreak, hmode]
    rfl

/-- Settles O38: the check is a comparison of modes, and each return writes the bits of its rule. -/
theorem trapReturnResults : Obligations.TrapReturnResults := by
  refine ⟨encodes_mret, encodes_sret, fun s => ⟨fun hchk hm => ?_, fun hok => ?_, fun hchk hm => ?_, fun hok => ?_⟩⟩
  · have hlt : s.mode.lt .machine = true := by revert hm; cases s.mode <;> decide
    rw [Takes, exec_mret, execMret, if_pos (by simp [hchk, hlt])]
    rfl
  · have hpass : ¬ (s.cfg.xretPrivCheck && s.mode.lt .machine) = true := by
      rcases hok with h | h <;> simp [h, Mode.lt]
    refine ⟨_, _, ?_, bits_returnFromMachine s, fun k hk => getLsbD_mstatusMret s.csr.mstatus hk⟩
    rw [exec_mret, execMret, if_neg hpass]
    rfl
  · rw [Takes, exec_sret, execSret, if_pos (by simp [hchk, hm, Mode.lt, Mode.bits])]
    rfl
  · have hpass : ¬ (s.cfg.xretPrivCheck && s.mode.lt .supervisor) = true := by
      rcases hok with h | h
      · simp [h]
      · revert h; cases s.mode <;> simp [Mode.lt, Mode.bits]
    refine ⟨_, ?_, fun k _ => getLsbD_mstatusSret s.csr.mstatus k⟩
    rw [exec_sret, execSret, if_neg hpass]
    rfl

/-- Settles O39: `wfi` tests whether `mip` is 0 after the copy. -/
theorem wfiResult : Obligations.WfiResult := by
  refine ⟨encodes_wfi, fun s => ⟨fun h => ?_, fun h => ?_⟩⟩
  · rw [exec_wfi, execWfi, if_pos ((ne_zero_iff_exists_getLsbD _).mpr h), next_pc_eq, updatePending_pc]
  · have hzero : ¬ (updatePending s).csr.mip ≠ 0#32 := by
      rw [ne_zero_iff_exists_getLsbD]
      rintro ⟨k, hk, hbit⟩
      rw [h k hk] at hbit
      cases hbit
    rw [exec_wfi, execWfi, if_neg hzero]

/-- Settles O40: the rule is the model's test, and each cause value is its code. -/
theorem trapTargetAndCauseValues : Obligations.TrapTargetAndCauseValues := by
  refine ⟨fun c s => ?_, fun e => ⟨toNat_word_exception e, exceptionCode_lt e⟩,
    fun i => ⟨toNat_word_interrupt i, by cases i <;> decide⟩, rfl, rfl, rfl, rfl, rfl, rfl, rfl, rfl, rfl, rfl, rfl,
    rfl⟩
  have hrule := trapTarget_eq_supervisor_iff c s
  cases c with
  | exception e => exact ⟨hrule.mpr, fun h => trapTarget_eq_machine_of_not (mt hrule.mp h)⟩
  | interrupt i => exact ⟨hrule.mpr, fun h => trapTarget_eq_machine_of_not (mt hrule.mp h)⟩

/-- Settles O42: the four bits the copy writes. -/
theorem pendingBitsFollowTheDevices : Obligations.PendingBitsFollowTheDevices := by
  refine fun s => ⟨_, _, rfl, rfl, fun x => ?_, fun k _ => getLsbD_mipWithLevels ..⟩
  rw [plicLevel, Uart.irq, Bool.and_eq_true, Bool.and_eq_true, decide_eq_true_eq]

/-- Settles O43. -/
theorem globalEnableRule : Obligations.GlobalEnableRule := globallyEnabled_iff

/-- Settles O44: the order of the search is the order of the ranks. -/
theorem samplingTakesTheFirstReadyInterrupt : Obligations.SamplingTakesTheFirstReadyInterrupt := by
  intro s u ready rank
  have hready : ∀ i, ready i ↔ interruptReady i u = true := fun i => (interruptReady_iff i u).symm
  refine ⟨fun i hi hfirst => ?_, fun hnone => ?_⟩
  · exact sampleInterrupts_of_first ((hready i).mp hi) fun j hj => hfirst j ((hready j).mpr hj)
  · exact sampleInterrupts_of_none fun i hi => hnone i ((hready i).mpr hi)

/-- Settles O45: the entry clears the enable bit of its target, and no target is above M. -/
theorem exceptionBlocksInterruptsOfItsTarget : Obligations.ExceptionBlocksInterruptsOfItsTarget := by
  intro e epc s hstack t
  constructor
  · intro hM
    have ht : t = _ := trapEntry_of_machine hM epc
    refine sampleInterrupts_of_none fun i hi => ?_
    obtain ⟨-, -, hglobal⟩ := (interruptReady_iff i _).mp hi
    have hmode : (updatePending t).mode = .machine := by rw [updatePending_mode, ht]
    have hmie : (updatePending t).csr.mstatus.getLsbD 3 = false := by
      change t.csr.mstatus.getLsbD 3 = false
      rw [ht]
      exact (getLsbD_mstatusTrapM _ _ _ (by decide)).trans (by simp [hstack])
    rw [globallyEnabled_iff, hmode, hmie] at hglobal
    rcases trapTarget_cases (.interrupt i) (updatePending t) with h | h <;> simp [h, Mode.bits] at hglobal
  · intro hS
    have ht : t = _ := trapEntry_of_supervisor hS epc
    have hpc : (updatePending t).pc = BitVec.ofNat 32 (s.csr.stvec.toNat / 4 * 4) := by
      rw [updatePending_pc, ht, ← trapBase_eq]
    refine (sampleInterrupts_cases t).imp_right fun ⟨i, hi, he⟩ => ⟨i, ?_, hpc ▸ he⟩
    obtain ⟨-, -, hglobal⟩ := (interruptReady_iff i _).mp hi
    have hmode : (updatePending t).mode = .supervisor := by rw [updatePending_mode, ht]
    have hsie : (updatePending t).csr.mstatus.getLsbD 1 = false := by
      change t.csr.mstatus.getLsbD 1 = false
      rw [ht]
      exact (getLsbD_mstatusTrapS ..).trans (by simp [hstack])
    rw [globallyEnabled_iff, hmode, hsie] at hglobal
    refine trapTarget_eq_machine_of_not fun hS' => ?_
    simp [hS', Mode.bits] at hglobal

/-- Settles O46: the shapes of an instruction that change the mode, and the two ends of a step. -/
theorem modeChangesOnlyByTrapAndReturn : Obligations.ModeChangesOnlyByTrapAndReturn := by
  refine ⟨fun i s t => exec_mode_cases, fun c epc s => ⟨trapEntry_mode .., (trapTarget_cases c s).symm⟩,
    fun s t h => ?_, fun s t h => ?_, fun s => ?_, fun c v s t h => ?_, fun cfg => rfl, fun s t h ht hs => ?_⟩
  · rw [exec_mret, execMret] at h
    split at h <;> obtain rfl := Host.Outcome.next.inj h
    · exact .inr rfl
    · exact .inl (bits_returnFromMachine s)
  · rw [exec_sret, execSret] at h
    split at h <;> obtain rfl := Host.Outcome.next.inj h
    · exact .inr rfl
    · exact .inl (bits_returnFromSupervisor s)
  · rcases sampleInterrupts_cases s with e | ⟨i, -, e⟩
    · exact .inl (by rw [e, updatePending_mode])
    · exact .inr ⟨i, e⟩
  · unfold csrSet at h
    split at h <;> cases h
    rfl
  · obtain ⟨-, rfl⟩ | ⟨-, ⟨e, -, rfl⟩ | ⟨i, u, hd, he, rfl⟩⟩ := step_cases h
    · exact absurd ht hs
    · exact absurd ((beforeExec_mode s).symm.trans ht) hs
    · obtain ⟨rfl, hmpp⟩ := exec_hypervisor he (endStep_hypervisor ht) (by rwa [beforeExec_mode])
      rw [beforeExec_csr] at hmpp
      exact ⟨hd, hmpp⟩

/-- Settles O41: trap entry written out for each target, and the bits of the words it computes. -/
theorem trapEntry : Obligations.TrapEntry := by
  intro c epc s
  rcases trapTarget_cases c s with hS | hM
  · refine ⟨mstatusTrapS s.cfg.trapStacksIe s.mode s.csr.mstatus, mipAfterTrap c s.csr.mip, .inr hS,
      fun k _ => getLsbD_mipAfterTrap c _ k, fun hM => ?_, fun _ => ⟨?_, fun k _ => getLsbD_mstatusTrapS ..⟩⟩
    · rw [hS] at hM
      cases hM
    · rw [trapEntry_of_supervisor hS, trapBase_eq]
  · refine ⟨mstatusTrapM s.cfg.trapStacksIe s.mode s.csr.mstatus, mipAfterTrap c s.csr.mip, .inl hM,
      fun k _ => getLsbD_mipAfterTrap c _ k, fun _ => ⟨?_, fun k hk => getLsbD_mstatusTrapM _ _ _ hk⟩, fun hS => ?_⟩
    · rw [trapEntry_of_machine hM, trapBase_eq]
    · rw [hM] at hS
      cases hS
end

section
/-!
Reset, the host's loads and placements, the parameters and the UART's output (20_memory.md R116, 70_reset_and_hazards.md
section 1).
-/

namespace Sys2Proof.Machine

/-! ## The output only grows (R116) -/

@[simp] theorem uart_readByte_output (u : Uart) (o : Nat) : (u.readByte o).2.output = u.output := by
  unfold Uart.readByte
  split
  case h_6 =>
    unfold Uart.readLsr Uart.receive
    cases u.poll.1 <;> rfl
  case h_1 | h_2 | h_3 => split <;> rfl
  all_goals rfl

theorem uart_writeByte_output (u : Uart) (o : Nat) (b : Byte) : u.output <+: (u.writeByte o b).output := by
  unfold Uart.writeByte
  split
  case h_1 =>
    split
    · exact List.prefix_refl _
    · exact List.prefix_append _ _
  case h_2 | h_3 => split <;> exact List.prefix_refl _
  all_goals exact List.prefix_refl _

theorem busReadByte_output (a : Word) (s : State) : (busReadByte a s).2.uart.output = s.uart.output := by
  unfold busReadByte
  cases route s.cfg a with
  | uart o => exact uart_readByte_output s.uart o
  | _ => rfl

theorem busWriteByte_output (a : Word) (b : Byte) (s : State) :
    s.uart.output <+: (busWriteByte a b s).uart.output := by
  unfold busWriteByte
  cases route s.cfg a with
  | uart o => exact uart_writeByte_output s.uart o b
  | _ => exact List.prefix_refl _

@[simp] theorem memRead_output (n : Nat) (a : Word) (s : State) : (memRead n a s).2.uart.output = s.uart.output :=
  memRead_keeps (f := fun s => s.uart.output) (P := fun _ => True) (fun a s _ => busReadByte_output a s)
    fun _ _ => trivial

theorem memWrite_output (n : Nat) (a v : Word) (s : State) : s.uart.output <+: (memWrite n a v s).uart.output := by
  induction n generalizing a v s with
  | zero => exact List.prefix_refl _
  | succ n ih => exact (busWriteByte_output a (v.setWidth 8) s).trans (ih ..)

theorem exec_cfg {i : Instr} {s t : State} (h : exec i s = .next t) : t.cfg = s.cfg := by
  cases exec_cases i s t h with
  | trap e => exact trapEntry_cfg ..
  | load | lr | store | amo | scSuccess => simp only [memWrite_cfg, memRead_cfg, clearReservation_cfg]
  | regs | halt | scFailure | csr | mret | sret | wfi => rfl

theorem exec_output {i : Instr} {s t : State} (h : exec i s = .next t) : s.uart.output <+: t.uart.output := by
  cases exec_cases i s t h with
  | trap e => rw [trapEntry_uart]
  | load n a | lr a => simp only [memRead_output, List.prefix_refl]
  | store n a v =>
    dsimp only
    exact memWrite_output n a v s
  | amo a v =>
    dsimp only
    rw [← memRead_output 4 a s]
    exact memWrite_output 4 a v (memRead 4 a s).2
  | scSuccess a v =>
    dsimp only
    exact memWrite_output 4 a v s.clearReservation
  | regs | halt | scFailure | csr | mret | sret | wfi => exact List.prefix_refl _

theorem exec_output_of_not_writes {i : Instr} {s t : State} (hw : writesMemory i = false) (h : exec i s = .next t) :
    t.uart.output = s.uart.output := by
  cases exec_cases i s t h with
  | trap e => rw [trapEntry_uart]
  | load n a | lr a => simp only [memRead_output]
  | store n a v r pc hr hi | amo a v r pc hr hi => rw [hw] at hi; cases hi
  | scSuccess a v r pc hr hi => obtain ⟨x, y, z, rfl⟩ := hi; cases hw
  | scFailure r pc hr hi => obtain ⟨x, y, z, rfl⟩ := hi; cases hw
  | regs | halt | csr | mret | sret | wfi => rfl

@[simp] theorem endStep_cfg (s : State) : (endStep s).cfg = s.cfg := by
  obtain ⟨-, e⟩ | ⟨-, e⟩ := endStep_cases s <;> simp [e]

@[simp] theorem endStep_uart (s : State) : (endStep s).uart = s.uart := by
  obtain ⟨-, e⟩ | ⟨-, e⟩ := endStep_cases s <;> simp [e]

/-- What a step does before its instruction writes no output. -/
theorem beforeExec_output (s : State) : (fetch (timeStep s)).2.uart.output = s.uart.output :=
  memRead_output 4 (timeStep s).pc (timeStep s)

/-! ## Loading an image (R474) -/

/-- A sequence of byte writes to RAM at different addresses: each byte reads back, every other one is as before. -/
theorem foldl_write {image : List Host.Cell} {m : Memory} (hwf : m.wf = true) (hlt : ∀ e ∈ image, e.1 < 2 ^ 32)
    (hnodup : (image.map Prod.fst).Nodup) :
    let m' := image.foldl (fun m e => m.write (BitVec.ofNat 32 e.1) e.2) m
    m'.wf = true ∧ (∀ e ∈ image, m'.read (BitVec.ofNat 32 e.1) = e.2) ∧
      ∀ a : Word, a.toNat ∉ image.map Prod.fst → m'.read a = m.read a := by
  induction image generalizing m with
  | nil => exact ⟨hwf, nofun, fun _ _ => rfl⟩
  | cons e image ih =>
    rw [List.map_cons, List.nodup_cons] at hnodup
    obtain ⟨hnew, hrest⟩ := hnodup
    rw [List.forall_mem_cons] at hlt
    obtain ⟨hlt, hlts⟩ := hlt
    have htoNat : (BitVec.ofNat 32 e.1).toNat = e.1 := Nat.mod_eq_of_lt hlt
    obtain ⟨hwf', hread, hkept⟩ := ih (memory_wf_write m (BitVec.ofNat 32 e.1) e.2 hwf) hlts hrest
    refine ⟨hwf', List.forall_mem_cons.mpr ⟨?_, hread⟩, fun a ha => ?_⟩
    · rw [List.foldl_cons, hkept _ (by rwa [htoNat]), memory_read_write_same _ _ _ hwf]
    · rw [List.map_cons, List.mem_cons, not_or] at ha
      rw [List.foldl_cons, hkept a ha.2, memory_read_write_ne]
      rintro rfl
      exact ha.1 htoNat

theorem imageByteInRam_iff (c : Config) (e : Host.Cell) :
    imageByteInRam c e = true ↔ e.1 < 2 ^ 32 ∧ route c (BitVec.ofNat 32 e.1) = .ram := by
  rw [imageByteInRam, Bool.and_eq_true, decide_eq_true_eq, beq_iff_eq]

/-! ## The placed word (log 11) -/

/-- The value of `n` bytes of RAM that hold the bytes of a word. -/
theorem leNat_readBytes_of_bytes {n : Nat} {a w : Word} {s : State} (hram : InRam s.cfg a n)
    (hbytes : ∀ k < n, s.mem.read (a + BitVec.ofNat 32 k) = (w >>> (8 * k)).setWidth 8) :
    leNat (readBytes n a s).1 = w.toNat % 2 ^ (8 * n) := by
  induction n generalizing a w with
  | zero => exact (Nat.mod_one _).symm
  | succ n ih =>
    obtain ⟨hfirst, hrest⟩ := (inRam_succ ..).mp hram
    have hbyte : s.mem.read a = w.setWidth 8 := by simpa using hbytes 0 (Nat.succ_pos n)
    have hlater : ∀ k < n, s.mem.read (a + 1#32 + BitVec.ofNat 32 k) = ((w >>> 8) >>> (8 * k)).setWidth 8 := by
      intro k hk
      rw [← add_ofNat_succ, hbytes (k + 1) (Nat.succ_lt_succ hk), ← BitVec.shiftRight_add, Nat.mul_succ, Nat.add_comm]
    have hpow : 2 ^ (8 * (n + 1)) = 2 ^ 8 * 2 ^ (8 * n) := by rw [Nat.mul_succ, Nat.pow_add, Nat.mul_comm]
    rw [readBytes_succ, busReadByte_ram a s hfirst, leNat, ih hrest hlater, hbyte, BitVec.toNat_setWidth,
      BitVec.toNat_ushiftRight, Nat.shiftRight_eq_div_pow, hpow, Nat.mod_mul]
    rfl

theorem byteOf_eq_setWidth (w : Word) (k : Nat) : byteOf w k = (w >>> (8 * k)).setWidth 8 := by
  apply BitVec.eq_of_getLsbD_eq
  intro i hi
  rw [getLsbD_byteOf, BitVec.getLsbD_setWidth, BitVec.getLsbD_ushiftRight]

/-- The four bytes of a word stored in RAM, at four different addresses. -/
theorem storeWordInRam_read (a w : Word) {m : Memory} (hwf : m.wf = true) {k : Nat} (hk : k < 4) :
    (storeWordInRam a w m).read (a + BitVec.ofNat 32 k) = byteOf w k := by
  have h1 := memory_wf_write m a (byteOf w 0) hwf
  have h2 := memory_wf_write _ (a + 1#32) (byteOf w 1) h1
  have h3 := memory_wf_write _ (a + 2#32) (byteOf w 2) h2
  rw [storeWordInRam, memory_read_write _ _ _ _ h3, memory_read_write _ _ _ _ h2, memory_read_write _ _ _ _ h1,
    memory_read_write _ _ _ _ hwf]
  interval_cases k <;> simp

end Sys2Proof.Machine

open Sys2Proof Sys2Proof.Machine

/-- Settles O50: only the bus writes append to the output, and no operation writes `cfg`. -/
theorem parametersStayAndOutputGrows : Obligations.ParametersStayAndOutputGrows := by
  refine ⟨fun s t h => ?_, fun i s t => exec_output_of_not_writes⟩
  have key : t.cfg = s.cfg ∧ s.uart.output <+: t.uart.output := by
    obtain ⟨-, rfl⟩ | ⟨-, ⟨e, -, rfl⟩ | ⟨i, u, -, he, rfl⟩⟩ := step_cases h
    · exact ⟨rfl, List.prefix_refl _⟩
    · exact ⟨beforeExec_cfg s, by rw [halt_uart, beforeExec_output]⟩
    · rw [endStep_cfg, endStep_uart, exec_cfg he, beforeExec_cfg, ← beforeExec_output s]
      exact ⟨rfl, exec_output he⟩
  obtain ⟨hcfg, more, hmore⟩ := key
  exact ⟨hcfg, more, hmore.symm⟩

/-- Settles O51: the reset state read off, the CSR file by its table, and no interrupt ready with `mie = 0`. -/
theorem resetState : Obligations.ResetState := by
  refine ⟨fun cfg => ?_, fun s hmie => sampleInterrupts_of_none fun i hi => ?_, rfl, rfl⟩
  · refine ⟨fun r => ?_, rfl, rfl, rfl, fun c => (csrReadValue_reset cfg c).trans (resetValue_csrReg cfg c), rfl, rfl,
      fun _ => rfl, rfl, rfl, rfl, rfl, rfl, rfl, rfl, rfl, rfl, rfl, rfl, rfl, fun _ => rfl, rfl, rfl, rfl,
      fun _ => ⟨rfl, rfl, rfl, rfl⟩, rfl, rfl⟩
    by_cases hr : r = 0
    · rw [hr, readReg_zero]
    · rw [readReg_of_ne_zero _ r hr]
      exact Vector.getElem_replicate r.isLt
  · obtain ⟨-, henabled, -⟩ := (interruptReady_iff i _).mp hi
    have hzero : (updatePending s).csr.mie = 0#32 := hmie
    rw [hzero, BitVec.getLsbD_zero] at henabled
    cases henabled

/-- Settles O52: the load is a sequence of byte writes, made only if every byte lies in RAM. -/
theorem imageIsLoadedIntoRam : Obligations.ImageIsLoadedIntoRam := by
  refine fun image s hwf => ⟨fun hram hnodup => ?_, fun ⟨e, he, hout⟩ => ?_⟩
  · have hall : image.all (imageByteInRam s.cfg) = true :=
      List.all_eq_true.mpr fun e he => (imageByteInRam_iff s.cfg e).mpr (hram e he)
    exact ⟨_, by rw [loadImage, if_pos hall], foldl_write hwf (fun e he => (hram e he).1) hnodup⟩
  · have hnot : ¬ image.all (imageByteInRam s.cfg) = true := fun hall =>
      hout ((imageByteInRam_iff s.cfg e).mp (List.all_eq_true.mp hall e he))
    rw [loadImage, if_neg hnot]

/-- Settles O53: the four bytes are written to RAM, and read back they are the word. -/
theorem placedWordIsFetched : Obligations.PlacedWordIsFetched := by
  intro s w hwf hram
  have hbytes : ∀ k < 4, (s.withFetchWord 32 w).mem.read (s.pc + BitVec.ofNat 32 k) =
      (BitVec.ofNat 32 (w % 2 ^ 32) >>> (8 * k)).setWidth 8 := fun k hk =>
    (storeWordInRam_read s.pc _ hwf hk).trans (byteOf_eq_setWidth ..)
  have hvalue : leNat (readBytes 4 s.pc (s.withFetchWord 32 w)).1 = w % 2 ^ 32 := by
    rw [leNat_readBytes_of_bytes (s := s.withFetchWord 32 w) hram hbytes, BitVec.toNat_ofNat, Nat.mod_mod, Nat.mod_mod]
  have hstate : (memRead 4 s.pc (s.withFetchWord 32 w)).2 = s.withFetchWord 32 w := memRead_ram_state _ _ _ hram
  refine Prod.ext ((memRead_fst ..).trans ?_) hstate
  change BitVec.ofNat 32 (leNat (readBytes 4 s.pc (s.withFetchWord 32 w)).1) = BitVec.ofNat 32 w
  rw [hvalue]
  exact BitVec.eq_of_toNat_eq (Nat.mod_mod w _)
end

section
/-!
The bus decoder (20_memory.md section 1), the UART (section 3), the framebuffer (section 4) and the CLINT
(60_exceptions.md section 7), byte by byte.
-/

namespace Sys2Proof.Machine

/-! ## The windows of a valid configuration (R101) -/

theorem disjointRanges_iff (a b : Nat × Nat) :
    Config.disjointRanges a b = true ↔ a.1 + a.2 ≤ b.1 ∨ b.1 + b.2 ≤ a.1 := by
  rw [Config.disjointRanges, Bool.or_eq_true, decide_eq_true_eq, decide_eq_true_eq]

/-- The windows the decoder looks at before another one hold none of its addresses. -/
structure WindowsDisjoint (c : Config) : Prop where
  clint_plic : c.clintBase.toNat + c.clintSize ≤ c.plicBase.toNat ∨ c.plicBase.toNat + c.plicSize ≤ c.clintBase.toNat
  clint_uart : c.clintBase.toNat + c.clintSize ≤ c.uartBase.toNat ∨ c.uartBase.toNat + c.uartSize ≤ c.clintBase.toNat
  clint_fb : c.clintBase.toNat + c.clintSize ≤ c.fbBase.toNat ∨ c.fbBase.toNat + c.fbSize ≤ c.clintBase.toNat
  plic_uart : c.plicBase.toNat + c.plicSize ≤ c.uartBase.toNat ∨ c.uartBase.toNat + c.uartSize ≤ c.plicBase.toNat
  plic_fb : c.plicBase.toNat + c.plicSize ≤ c.fbBase.toNat ∨ c.fbBase.toNat + c.fbSize ≤ c.plicBase.toNat
  uart_fb : c.uartBase.toNat + c.uartSize ≤ c.fbBase.toNat ∨ c.fbBase.toNat + c.fbSize ≤ c.uartBase.toNat

theorem windowsDisjoint_of_valid {c : Config} (h : c.valid = true) : WindowsDisjoint c := by
  simp only [Config.valid, Config.windows, Config.allDisjoint, List.all_cons, List.all_nil, Bool.and_true,
    Bool.and_eq_true, disjointRanges_iff] at h
  obtain ⟨⟨⟨-, ⟨h1, h2, h3⟩, ⟨h4, h5⟩, h6⟩, -⟩, -⟩ := h
  exact ⟨h1, h2, h3, h4, h5, h6⟩

section
variable {c : Config} {a : Word}

theorem inWindow_false_of_disjoint {base base' : Word} {size size' : Nat}
    (hd : base.toNat + size ≤ base'.toNat ∨ base'.toNat + size' ≤ base.toNat)
    (h : base'.toNat ≤ a.toNat ∧ a.toNat < base'.toNat + size') : ¬ inWindow base size a = true := by
  rw [inWindow_iff]
  omega

theorem route_of_clint (h : c.clintBase.toNat ≤ a.toNat ∧ a.toNat < c.clintBase.toNat + c.clintSize) :
    route c a = .clint (a.toNat - c.clintBase.toNat) := by
  rw [route, if_pos ((inWindow_iff ..).mpr h)]

theorem route_of_plic (hd : WindowsDisjoint c)
    (h : c.plicBase.toNat ≤ a.toNat ∧ a.toNat < c.plicBase.toNat + c.plicSize) :
    route c a = .plic (a.toNat - c.plicBase.toNat) := by
  rw [route, if_neg (inWindow_false_of_disjoint hd.clint_plic h), if_pos ((inWindow_iff ..).mpr h)]

theorem route_of_uart (hd : WindowsDisjoint c)
    (h : c.uartBase.toNat ≤ a.toNat ∧ a.toNat < c.uartBase.toNat + c.uartSize) :
    route c a = .uart (a.toNat - c.uartBase.toNat) := by
  rw [route, if_neg (inWindow_false_of_disjoint hd.clint_uart h), if_neg (inWindow_false_of_disjoint hd.plic_uart h),
    if_pos ((inWindow_iff ..).mpr h)]

theorem route_of_fb (hd : WindowsDisjoint c)
    (h : c.fbBase.toNat ≤ a.toNat ∧ a.toNat < c.fbBase.toNat + c.fbSize) :
    route c a = .fb (a.toNat - c.fbBase.toNat) := by
  rw [route, if_neg (inWindow_false_of_disjoint hd.clint_fb h), if_neg (inWindow_false_of_disjoint hd.plic_fb h),
    if_neg (inWindow_false_of_disjoint hd.uart_fb h), if_pos ((inWindow_iff ..).mpr h)]

theorem route_of_none
    (hclint : ¬ (c.clintBase.toNat ≤ a.toNat ∧ a.toNat < c.clintBase.toNat + c.clintSize))
    (hplic : ¬ (c.plicBase.toNat ≤ a.toNat ∧ a.toNat < c.plicBase.toNat + c.plicSize))
    (huart : ¬ (c.uartBase.toNat ≤ a.toNat ∧ a.toNat < c.uartBase.toNat + c.uartSize))
    (hfb : ¬ (c.fbBase.toNat ≤ a.toNat ∧ a.toNat < c.fbBase.toNat + c.fbSize)) : route c a = .ram := by
  rw [route, if_neg (mt (inWindow_iff ..).mp hclint), if_neg (mt (inWindow_iff ..).mp hplic),
    if_neg (mt (inWindow_iff ..).mp huart), if_neg (mt (inWindow_iff ..).mp hfb)]

end

/-! ## The UART (R114 to R121) -/

section
variable {α : Type} (free : Nat → α)

theorem ask_of_next_nil {o : Oracle α} (h : o.next = []) : o.ask free = (free o.count, ⟨[], o.count + 1⟩) := by
  obtain ⟨next, count⟩ := o
  cases h
  exact ask_nil free count

theorem ask_of_next_cons {o : Oracle α} {a : α} {rest : List α} (h : o.next = a :: rest) :
    o.ask free = (a, ⟨rest, o.count⟩) := by
  obtain ⟨next, count⟩ := o
  cases h
  exact ask_cons free a rest count

end

section
variable {u : Uart}

/-- R115. -/
theorem uart_readRbr_result (h : u.dlab = false) :
    ∃ l : Byte, u.readByte 0 = (u.rbr, { u with lsr := l }) ∧
      ∀ k < 8, l.getLsbD k = if k = 0 then false else u.lsr.getLsbD k := by
  refine ⟨setBit u.lsr 0 false, if_neg (by simp [h]), fun k _ => ?_⟩
  rw [getLsbD_setBit]
  simp only [Nat.succ_pos, and_true]

/-- R116. -/
theorem uart_transmit_result (h : u.dlab = false) (b : Byte) :
    ∃ l : Byte, u.writeByte 0 b = { u with output := u.output ++ [b], lsr := l } ∧
      ∀ k < 8, l.getLsbD k = if k = 5 ∨ k = 6 then true else u.lsr.getLsbD k := by
  refine ⟨u.lsr ||| 0x60#8, if_neg (by simp [h]), fun k hk => ?_⟩
  have hmask : ∀ k < 8, (0x60#8).getLsbD k = decide (k = 5 ∨ k = 6) := by decide
  rw [BitVec.getLsbD_or, hmask k hk]
  by_cases h56 : k = 5 ∨ k = 6 <;> simp [h56]

/-- R117. -/
theorem uart_readIir_result (h : u.dlab = false) :
    u.readByte 2 = (if u.ier.getLsbD 0 = true ∧ u.lsr.getLsbD 0 = true then 0x04#8 else 0x01#8, u) := by
  have hiir : u.readByte 2 = (u.iir, u) := if_neg (by simp [h])
  rw [hiir, Uart.iir, Uart.irq]
  simp only [Bool.and_eq_true]

/-- R119, R121: the poll, and what its answer does. -/
theorem uart_readLsr_result (u : Uart) :
    ∃ (r : Option Byte) (i : Oracle (Option Byte)),
      (u.input.next = [] → r = Config.freeInput u.input.count ∧ i = ⟨[], u.input.count + 1⟩) ∧
      (∀ a rest, u.input.next = a :: rest → r = a ∧ i = ⟨rest, u.input.count⟩) ∧
      (r = none → u.readByte 5 = (u.lsr, { u with input := i })) ∧
      (∀ c, r = some c →
        ∃ l : Byte, u.readByte 5 = (l, { u with input := i, rbr := c, lsr := l }) ∧
          ∀ k < 8, l.getLsbD k = if k = 0 then true else u.lsr.getLsbD k) := by
  have hread : u.readByte 5 =
      ((Uart.receive { u with input := (u.input.ask Config.freeInput).2 } (u.input.ask Config.freeInput).1).lsr,
        Uart.receive { u with input := (u.input.ask Config.freeInput).2 } (u.input.ask Config.freeInput).1) := rfl
  refine ⟨(u.input.ask Config.freeInput).1, (u.input.ask Config.freeInput).2, fun h => ?_, fun a rest h => ?_,
    fun h => ?_, fun c h => ⟨setBit u.lsr 0 true, ?_, fun k _ => ?_⟩⟩
  · rw [ask_of_next_nil _ h]
    exact ⟨rfl, rfl⟩
  · rw [ask_of_next_cons _ h]
    exact ⟨rfl, rfl⟩
  · rw [hread, h]
    rfl
  · rw [hread, h]
    rfl
  · rw [getLsbD_setBit]
    simp only [Nat.succ_pos, and_true]

end

/-! ## Bytes of registers -/

theorem toNat_byteOf {m : Nat} (v : BitVec m) (k : Nat) : (byteOf v k).toNat = v.toNat / 2 ^ (8 * k) % 2 ^ 8 := by
  rw [byteOf, BitVec.extractLsb'_toNat, Nat.shiftRight_eq_div_pow]

theorem byteOf_eq_ofNat {m : Nat} (v : BitVec m) (k : Nat) : byteOf v k = BitVec.ofNat 8 (v.toNat / 2 ^ (8 * k)) := by
  apply BitVec.eq_of_toNat_eq
  rw [toNat_byteOf, BitVec.toNat_ofNat]

theorem getLsbD_setByte {m : Nat} (v : BitVec m) (k : Nat) (b : Byte) {i : Nat} (hi : i < m) :
    (setByte v k b).getLsbD i = if i / 8 = k then b.getLsbD (i % 8) else v.getLsbD i := by
  rw [setByte, getLsbD_insertBits]
  by_cases h : i / 8 = k
  · have hplace : i - 8 * k = i % 8 := by omega
    rw [if_pos (by omega), if_pos h, hplace]
  · rw [if_neg (by omega), if_neg h]

/-! ## The framebuffer (R136) -/

section
variable {fb : Sparse 32} (o : Nat) (b : Byte)

theorem fbReadByte_fbWriteByte_same (hwf : Sparse.wf fb = true) : fbReadByte (fbWriteByte fb o b) o = b := by
  rw [fbReadByte, pixel, fbWriteByte, sparse_get_set_same _ _ _ hwf]
  exact byteOf_setByte_same _ _ _ (by omega)

theorem fbReadByte_fbWriteByte_ne (hwf : Sparse.wf fb = true) {x : Nat} (h : x ≠ o) :
    fbReadByte (fbWriteByte fb o b) x = fbReadByte fb x := by
  by_cases hpixel : x / 4 = o / 4
  · rw [fbReadByte, pixel, hpixel, fbWriteByte, sparse_get_set_same _ _ _ hwf, byteOf_setByte_ne _ _ _ _ (by omega),
      ← hpixel]
    rfl
  · rw [fbReadByte, pixel, fbWriteByte, sparse_get_set_ne _ _ _ _ hpixel]
    rfl

end

/-! ## The CLINT (R432) -/

section
variable (c : Clint) (o : Nat) (b : Byte)

theorem toNat_clint_readByte :
    (c.readByte o).toNat =
      (if o = 0 then c.msip.toNat
        else if 0x4000 ≤ o ∧ o < 0x4008 then c.mtimecmp.toNat / 2 ^ (8 * (o - 0x4000)) % 2 ^ 8
        else if 0xBFF8 ≤ o ∧ o < 0xC000 then c.mtime.toNat / 2 ^ (8 * (o - 0xBFF8)) % 2 ^ 8
        else 0) := by
  unfold Clint.readByte
  by_cases h0 : o = 0
  · rw [if_pos (by omega), if_pos h0, if_pos h0]
    cases c.msip <;> rfl
  · rw [if_neg h0, if_neg h0]
    by_cases hcmp : 0x4000 ≤ o ∧ o < 0x4008
    · rw [if_neg (by omega), if_pos (by omega), if_pos hcmp, toNat_byteOf]
    · by_cases htime : 0xBFF8 ≤ o ∧ o < 0xC000
      · rw [if_neg (by omega), if_neg (by omega), if_pos (by omega), if_neg hcmp, if_pos htime, toNat_byteOf]
      · rw [if_neg (by omega : ¬ (0x4000 ≤ o ∧ o ≤ 0x4007)), if_neg (by omega : ¬ (0xBFF8 ≤ o ∧ o ≤ 0xBFFF)), ite_self,
          if_neg hcmp, if_neg htime]
        rfl

/-- The one register a byte write to the CLINT changes. -/
theorem clint_writeByte_cases :
    (o = 0 ∧ c.writeByte o b = { c with msip := b.getLsbD 0 }) ∨
    ((0x4000 ≤ o ∧ o < 0x4008) ∧ c.writeByte o b = { c with mtimecmp := setByte c.mtimecmp (o - 0x4000) b }) ∨
    ((0xBFF8 ≤ o ∧ o < 0xC000) ∧ c.writeByte o b = { c with mtime := setByte c.mtime (o - 0xBFF8) b }) ∨
    (o ≠ 0 ∧ ¬ (0x4000 ≤ o ∧ o < 0x4008) ∧ ¬ (0xBFF8 ≤ o ∧ o < 0xC000) ∧ c.writeByte o b = c) := by
  unfold Clint.writeByte
  by_cases h0 : o = 0
  · exact .inl ⟨h0, if_pos h0⟩
  · rw [if_neg h0]
    by_cases hcmp : 0x4000 ≤ o ∧ o < 0x4008
    · exact .inr (.inl ⟨hcmp, if_pos (by omega)⟩)
    · rw [if_neg (by omega)]
      by_cases htime : 0xBFF8 ≤ o ∧ o < 0xC000
      · exact .inr (.inr (.inl ⟨htime, if_pos (by omega)⟩))
      · exact .inr (.inr (.inr ⟨h0, hcmp, htime, if_neg (by omega)⟩))

end

end Sys2Proof.Machine

open Sys2Proof Sys2Proof.Machine

/-- Settles O54: in a valid configuration no earlier window of the decoder holds the address. -/
theorem decoderRoutesByWindow : Obligations.DecoderRoutesByWindow := by
  refine ⟨rfl, fun s a b hvalid => ?_⟩
  have hd := windowsDisjoint_of_valid hvalid
  refine ⟨fun h => ?_, fun h => ?_, fun h => ?_, fun h => ?_, fun h1 h2 h3 h4 => ?_⟩
  · have hr := route_of_clint h
    exact ⟨hr, busReadByte_clint hr, busWriteByte_clint hr⟩
  · have hr := route_of_plic hd h
    exact ⟨hr, busReadByte_plic hr, busWriteByte_plic hr⟩
  · have hr := route_of_uart hd h
    exact ⟨hr, busReadByte_uart hr, busWriteByte_uart hr⟩
  · have hr := route_of_fb hd h
    exact ⟨hr, busReadByte_fb hr, busWriteByte_fb hr⟩
  · have hr := route_of_none h1 h2 h3 h4
    exact ⟨hr, busReadByte_ram a s hr, busWriteByte_ram a b s hr⟩

/-- Settles O55: each offset's arm, and the bits of `lsr` it writes. -/
theorem uartRegisterEffects : Obligations.UartRegisterEffects := by
  refine fun u b => ⟨fun h => ?_, fun h => ?_, uart_readLsr_result u, rfl, rfl, rfl, rfl, rfl, rfl, rfl, rfl, rfl,
    fun o ho => ?_⟩
  · have hdlab : ¬ u.dlab = true := Bool.eq_false_iff.mp h
    exact ⟨uart_readRbr_result h, uart_transmit_result h b, if_neg hdlab, if_neg hdlab, uart_readIir_result h,
      if_neg hdlab⟩
  · exact ⟨if_pos h, if_pos h, if_pos h, if_pos h, if_pos h, if_pos h⟩
  · obtain ⟨k, rfl⟩ := Nat.exists_eq_add_of_le' ho
    exact ⟨rfl, rfl⟩

/-- Settles O56: a byte is a field of its pixel, and pixels are a canonical map. -/
theorem framebufferBytes : Obligations.FramebufferBytes := fun _ o b hwf =>
  ⟨toNat_byteOf .., fbReadByte_fbWriteByte_same o b hwf, fun _ h => fbReadByte_fbWriteByte_ne o b hwf h,
    sparse_wf_set _ _ _ hwf⟩

/-- Settles O57: the read by its ranges, and of a write the one register it changes. -/
theorem clintBytes : Obligations.ClintBytes := by
  refine fun c o b => ⟨toNat_clint_readByte c o, ?_⟩
  obtain ⟨rfl, e⟩ | ⟨ho, e⟩ | ⟨ho, e⟩ | ⟨h0, hcmp, htime, e⟩ := clint_writeByte_cases c o b
  · rw [e]
    exact ⟨rfl, fun k _ => (if_neg (by omega)).symm, fun k _ => (if_neg (by omega)).symm⟩
  · rw [e]
    refine ⟨(if_neg (by omega)).symm, fun k hk => ?_, fun k _ => (if_neg (by omega)).symm⟩
    rw [getLsbD_setByte _ _ _ hk]
    simp only [ho, true_and]
  · rw [e]
    refine ⟨(if_neg (by omega)).symm, fun k _ => (if_neg (by omega)).symm, fun k hk => ?_⟩
    rw [getLsbD_setByte _ _ _ hk]
    simp only [ho, true_and]
  · rw [e]
    exact ⟨(if_neg h0).symm, fun k _ => (if_neg (by omega)).symm, fun k _ => (if_neg (by omega)).symm⟩
end

section
/-!
The PLIC (60_exceptions.md section 8): its registers byte by byte, the claim, the completion, the gateways and the
output.
-/

namespace Sys2Proof.Machine

/-! ## Bit sets and bytes of bits -/

theorem bitAt_setBitAt {m : Sparse 1} (hwf : Sparse.wf m = true) (s : Nat) (b : Bool) (x : Nat) :
    bitAt (setBitAt m s b) x = if x = s then b else bitAt m x := by
  rw [bitAt, setBitAt, sparse_get_set _ _ _ _ hwf]
  by_cases h : x = s
  · rw [if_pos h, if_pos h]
    cases b <;> rfl
  · rw [if_neg h, if_neg h, bitAt]

theorem wf_setBitAt {m : Sparse 1} (hwf : Sparse.wf m = true) (s : Nat) (b : Bool) :
    Sparse.wf (setBitAt m s b) = true := sparse_wf_set _ _ _ hwf

theorem getLsbD_byteOfBits (f : Nat → Bool) {j : Nat} (hj : j < 8) : (byteOfBits f).getLsbD j = f j := by
  unfold byteOfBits
  simp only [BitVec.getLsbD_append]
  interval_cases j <;> simp

theorem getLsbD_sourceByte (n : Nat) (m : Sparse 1) (first : Nat) {j : Nat} (hj : j < 8) :
    (sourceByte n m first).getLsbD j = (decide (1 ≤ first + j ∧ first + j < n) && bitAt m (first + j)) := by
  rw [sourceByte, getLsbD_byteOfBits _ hj, isSource, Bool.decide_and]

/-- The first `k` bits of a byte written to a bit set: those of sources are set, and no other bit changes. -/
theorem bitAt_setSourceBits (n : Nat) {m : Sparse 1} (hwf : Sparse.wf m = true) (first : Nat) (b : Byte) (k : Nat) :
    let m' := (List.range k).foldl
      (fun m j => if isSource n (first + j) then setBitAt m (first + j) (b.getLsbD j) else m) m
    Sparse.wf m' = true ∧
      ∀ x, bitAt m' x =
        if first ≤ x ∧ x < first + k ∧ isSource n x = true then b.getLsbD (x - first) else bitAt m x := by
  induction k with
  | zero => exact ⟨hwf, fun x => (if_neg (by omega)).symm⟩
  | succ k ih =>
    obtain ⟨hwf', hbits⟩ := ih
    rw [List.range_succ, List.foldl_append, List.foldl_cons, List.foldl_nil]
    by_cases hs : isSource n (first + k) = true
    · rw [if_pos hs]
      refine ⟨wf_setBitAt hwf' _ _, fun x => ?_⟩
      rw [bitAt_setBitAt hwf', hbits]
      by_cases hx : x = first + k
      · rw [if_pos hx, if_pos ⟨by omega, by omega, hx ▸ hs⟩, hx, Nat.add_sub_cancel_left]
      · rw [if_neg hx]
        have hrange : x < first + (k + 1) ↔ x < first + k := by omega
        simp only [hrange]
    · rw [if_neg hs]
      refine ⟨hwf', fun x => ?_⟩
      rw [hbits]
      have hrange : (x < first + (k + 1) ∧ isSource n x = true) ↔ (x < first + k ∧ isSource n x = true) := by
        refine and_congr_left fun hx => ?_
        have : x ≠ first + k := fun e => hs (e ▸ hx)
        omega
      simp only [hrange]

theorem bitAt_setSourceByte (n : Nat) {m : Sparse 1} (hwf : Sparse.wf m = true) (k : Nat) (b : Byte) (x : Nat) :
    bitAt (setSourceByte n m (8 * k) b) x =
      if x / 8 = k ∧ 1 ≤ x ∧ x < n then b.getLsbD (x % 8) else bitAt m x := by
  rw [setSourceByte, (bitAt_setSourceBits n hwf (8 * k) b 8).2 x]
  by_cases h : x / 8 = k ∧ 1 ≤ x ∧ x < n
  · have hplace : x - 8 * k = x % 8 := by omega
    rw [if_pos ⟨by omega, by omega, isSource_iff.mpr h.2⟩, if_pos h, hplace]
  · rw [if_neg h, if_neg]
    rintro ⟨hlo, hhi, hs⟩
    exact h ⟨by omega, isSource_iff.mp hs⟩

/-! ## The register map by byte (R446, R447) -/

section
variable {n ctx : Nat} (p : Plic) {o : Nat} (b : Byte)

theorem plic_readByte_none (h : plicReg n ctx o = .none) : p.readByte n ctx o = (0#8, p) := by
  rw [Plic.readByte, h]

theorem plic_writeByte_none (h : plicReg n ctx o = .none) : p.writeByte n ctx o b = p := by
  rw [Plic.writeByte, h]

theorem plic_readByte_priority {s k : Nat} (h : plicReg n ctx o = .priority s k) (hs : isSource n s = true) :
    p.readByte n ctx o = (byteOf (Sparse.get p.priority s) k, p) := by
  rw [Plic.readByte, h]
  simp only [hs, if_true]

theorem plic_writeByte_priority {s k : Nat} (h : plicReg n ctx o = .priority s k) (hs : isSource n s = true) :
    p.writeByte n ctx o b =
      { p with priority := Sparse.set p.priority s (setByte (Sparse.get p.priority s) k b) } := by
  rw [Plic.writeByte, h]
  exact if_pos hs

/-- Priority 0 belongs to no source. -/
theorem plic_priority_zero {k : Nat} (h : plicReg n ctx o = .priority 0 k) :
    p.readByte n ctx o = (0#8, p) ∧ p.writeByte n ctx o b = p := by
  rw [Plic.readByte, Plic.writeByte, h]
  exact ⟨rfl, rfl⟩

theorem plic_readByte_pending {f : Nat} (h : plicReg n ctx o = .pending f) :
    p.readByte n ctx o = (sourceByte n p.pending f, p) := by
  rw [Plic.readByte, h]

theorem plic_writeByte_pending {f : Nat} (h : plicReg n ctx o = .pending f) : p.writeByte n ctx o b = p := by
  rw [Plic.writeByte, h]

theorem plic_readByte_enable {f : Nat} (h : plicReg n ctx o = .enable f) :
    p.readByte n ctx o = (sourceByte n p.enable f, p) := by
  rw [Plic.readByte, h]

theorem plic_writeByte_enable {f : Nat} (h : plicReg n ctx o = .enable f) :
    p.writeByte n ctx o b = { p with enable := setSourceByte n p.enable f b } := by
  rw [Plic.writeByte, h]

theorem plic_readByte_threshold {k : Nat} (h : plicReg n ctx o = .threshold k) :
    p.readByte n ctx o = (byteOf p.threshold k, p) := by
  rw [Plic.readByte, h]

theorem plic_writeByte_threshold {k : Nat} (h : plicReg n ctx o = .threshold k) :
    p.writeByte n ctx o b = { p with threshold := setByte p.threshold k b } := by
  rw [Plic.writeByte, h]

theorem plic_readByte_claim {lane : Nat} (h : plicReg n ctx o = .claim lane) :
    p.readByte n ctx o = p.claimRead n lane := by
  rw [Plic.readByte, h]

theorem plic_writeByte_claim {lane : Nat} (h : plicReg n ctx o = .claim lane) :
    p.writeByte n ctx o b = p.completeWrite n lane b := by
  rw [Plic.writeByte, h]

end

/-! ## The claim (R451) -/

theorem claimable_iff (p : Plic) (s : Nat) :
    p.claimable s = true ↔
      bitAt p.pending s = true ∧ bitAt p.enable s = true ∧ p.threshold.toNat < (Sparse.get p.priority s).toNat := by
  rw [Plic.claimable, Bool.and_eq_true, Bool.and_eq_true, decide_eq_true_eq, and_assoc]

theorem sources_succ {n : Nat} (hn : 1 ≤ n) : sources (n + 1) = sources n ++ [n] := by
  rw [sources, List.range_succ, List.filter_append, List.filter_singleton, decide_eq_true hn, cond_true,
    sources]

/-- `t` goes before `s` in a claim: a higher priority, or the smaller id among equals. -/
def Plic.Beats (p : Plic) (t s : Nat) : Prop :=
  (Sparse.get p.priority s).toNat < (Sparse.get p.priority t).toNat ∨
    (Sparse.get p.priority s).toNat = (Sparse.get p.priority t).toNat ∧ t ≤ s

/-- What `best` is among the sources below `n`. -/
def Plic.IsBest (p : Plic) (n : Nat) : Option Nat → Prop
  | none => ∀ s, 1 ≤ s → s < n → p.claimable s = false
  | some t => (1 ≤ t ∧ t < n) ∧ p.claimable t = true ∧ ∀ s, 1 ≤ s → s < n → p.claimable s = true → p.Beats t s

theorem Plic.Beats.refl (p : Plic) (s : Nat) : p.Beats s s := .inr ⟨rfl, Nat.le_refl s⟩

/-- One more source: `t` is still the best if it goes before the new one too. -/
theorem isBest_some_succ {p : Plic} {n t : Nat} (ht : 1 ≤ t ∧ t < n + 1) (hct : p.claimable t = true)
    (hbelow : ∀ s, 1 ≤ s → s < n → p.claimable s = true → p.Beats t s) (hlast : p.claimable n = true → p.Beats t n) :
    p.IsBest (n + 1) (some t) := by
  refine ⟨ht, hct, fun s hs hlt hcs => ?_⟩
  obtain hlt | rfl := Nat.lt_succ_iff_lt_or_eq.mp hlt
  · exact hbelow s hs hlt hcs
  · exact hlast hcs

/-- Looking at one more source, of a larger id than all before it. -/
theorem isBest_betterOf {p : Plic} {n : Nat} (hn : 1 ≤ n) {best : Option Nat} (h : p.IsBest n best) :
    p.IsBest (n + 1) (p.betterOf best n) := by
  have hnew : 1 ≤ n ∧ n < n + 1 := ⟨hn, Nat.lt_succ_self n⟩
  unfold Plic.betterOf
  by_cases hc : p.claimable n = true
  · rw [if_pos hc]
    cases best with
    | none => exact isBest_some_succ hnew hc (fun s hs hlt hcs => absurd hcs (by simp [h s hs hlt])) fun _ => .refl p n
    | some t =>
      obtain ⟨ht, hct, hbeats⟩ := h
      dsimp only
      split
      case isTrue hhigher =>
        refine isBest_some_succ hnew hc (fun s hs hlt hcs => .inl ?_) fun _ => .refl p n
        obtain hlower | ⟨hequal, -⟩ := hbeats s hs hlt hcs
        · exact Nat.lt_trans hlower hhigher
        · exact hequal ▸ hhigher
      case isFalse hnot =>
        refine isBest_some_succ ⟨ht.1, Nat.lt_succ_of_lt ht.2⟩ hct hbeats fun _ => ?_
        unfold Plic.Beats
        omega
  · rw [if_neg hc]
    cases best with
    | none =>
      intro s hs hlt
      obtain hlt | rfl := Nat.lt_succ_iff_lt_or_eq.mp hlt
      · exact h s hs hlt
      · exact Bool.eq_false_iff.mpr hc
    | some t =>
      obtain ⟨ht, hct, hbeats⟩ := h
      exact isBest_some_succ ⟨ht.1, Nat.lt_succ_of_lt ht.2⟩ hct hbeats fun hc' => absurd hc' hc

/-- The fold over the sources finds the best one. -/
theorem isBest_best (p : Plic) (n : Nat) : p.IsBest n (p.best n) := by
  induction n with
  | zero => exact fun s _ hlt => absurd hlt (Nat.not_lt_zero s)
  | succ n ih =>
    cases n with
    | zero => exact fun s hs hlt => absurd hs (by omega)
    | succ n =>
      rw [Plic.best, sources_succ (Nat.succ_pos n), List.foldl_append, List.foldl_cons, List.foldl_nil]
      exact isBest_betterOf (Nat.succ_pos n) ih

theorem best_eq_some {p : Plic} {n id : Nat} (hid : 1 ≤ id ∧ id < n) (hc : p.claimable id = true)
    (hbeats : ∀ s, 1 ≤ s → s < n → p.claimable s = true → p.Beats id s) : p.best n = some id := by
  have hbest := isBest_best p n
  cases h : p.best n with
  | none =>
    rw [h] at hbest
    rw [hbest id hid.1 hid.2] at hc
    cases hc
  | some t =>
    rw [h] at hbest
    obtain ⟨ht, hct, hbeats'⟩ := hbest
    have h1 := hbeats t ht.1 ht.2 hct
    have h2 := hbeats' id hid.1 hid.2 hc
    unfold Plic.Beats at h1 h2
    congr 1
    omega

theorem best_eq_none {p : Plic} {n : Nat} (h : ∀ s, 1 ≤ s → s < n → ¬ p.claimable s = true) : p.best n = none := by
  have hbest := isBest_best p n
  cases hb : p.best n with
  | none => rfl
  | some t =>
    rw [hb] at hbest
    exact absurd hbest.2.1 (h t hbest.1.1 hbest.1.2)

/-! ## The gateways (R453) -/

/-- Setting the bits of a list that a condition picks. -/
theorem bitAt_foldl_setBits (cond : Nat → Bool) (l : List Nat) {m : Sparse 1} (hwf : Sparse.wf m = true) (x : Nat) :
    bitAt (l.foldl (fun m s => if cond s then setBitAt m s true else m) m) x =
      (bitAt m x || (decide (x ∈ l) && cond x)) := by
  induction l generalizing m with
  | nil => simp
  | cons s l ih =>
    rw [List.foldl_cons]
    by_cases hc : cond s = true
    · rw [if_pos hc, ih (wf_setBitAt hwf s true), bitAt_setBitAt hwf]
      by_cases hx : x = s
      · simp [hx, hc]
      · simp [hx]
    · rw [if_neg hc, ih hwf]
      by_cases hx : x = s
      · simp [hx, hc]
      · simp [hx]

theorem bitAt_gateways (level : Nat → Bool) {p : Plic} (hwf : Sparse.wf p.pending = true) (n x : Nat) :
    bitAt (p.gateways n level).pending x =
      (bitAt p.pending x || (decide (1 ≤ x ∧ x < n) && level x && !bitAt p.inService x)) := by
  have h := bitAt_foldl_setBits (fun s => level s && !bitAt p.inService s) (sources n) hwf x
  simp only [mem_sources, ← Bool.and_assoc] at h
  exact h

/-! ## Completion and output (R452, R454) -/

theorem completeWrite_of_not {n lane : Nat} {b : Byte} (p : Plic) (h : lane ≠ 0 ∨ b.toNat = 0 ∨ n ≤ b.toNat) :
    p.completeWrite n lane b = p := by
  refine if_neg fun ⟨hlane, hs⟩ => ?_
  have := isSource_iff.mp hs
  omega

theorem output_iff (p : Plic) (n : Nat) :
    p.output n = true ↔ ∃ s, 1 ≤ s ∧ s < n ∧ bitAt p.pending s = true ∧ bitAt p.enable s = true ∧
      p.threshold.toNat < (Sparse.get p.priority s).toNat := by
  rw [Plic.output, List.any_eq_true]
  refine exists_congr fun s => ?_
  rw [mem_sources, claimable_iff, and_assoc]

end Sys2Proof.Machine

open Sys2Proof Sys2Proof.Machine

/-- Settles O58: each row of the map by the lemma that says which register its offsets name. -/
theorem plicRegisterBytes : Obligations.PlicRegisterBytes := by
  intro p n ctx b hn hctx hprio henable
  refine ⟨fun s k h1 hs hk => ?_, fun k hk h1 => ?_, fun k hk => ?_, fun k hk => ?_, fun lane hl => ?_,
    fun o hp hw he ht => ?_⟩
  · have hreg : plicReg n ctx (4 * s + k) = .priority s k := plicReg_priority hs hk
    have hsource : isSource n s = true := isSource_iff.mpr ⟨h1, hs⟩
    refine ⟨by rw [plic_readByte_priority p hreg hsource, byteOf_eq_ofNat], _,
      plic_writeByte_priority p b hreg hsource, fun x hx => sparse_get_set_ne _ _ _ _ hx, fun j hj => ?_⟩
    rw [sparse_get_set_same _ _ _ hprio, getLsbD_setByte _ _ _ hj]
  · have hreg : plicReg n ctx (4 * 0 + k) = .priority 0 k := plicReg_priority h1 hk
    rw [Nat.mul_zero, Nat.zero_add] at hreg
    exact plic_priority_zero p b hreg
  · have hpending : plicReg n ctx (0x1000 + k) = .pending (8 * k) := plicReg_pending hn hk
    have henab : plicReg n ctx (0x2000 + 0x80 * ctx + k) = .enable (8 * k) := plicReg_enable hn hk
    refine ⟨plic_writeByte_pending p b hpending, by rw [plic_readByte_pending p hpending],
      by rw [plic_readByte_enable p henab], fun j hj => ?_, fun j hj => ?_, _, plic_writeByte_enable p b henab,
      bitAt_setSourceByte n henable k b⟩
    · rw [plic_readByte_pending p hpending, getLsbD_sourceByte _ _ _ hj]
    · rw [plic_readByte_enable p henab, getLsbD_sourceByte _ _ _ hj]
  · have hreg : plicReg n ctx (0x200000 + 0x1000 * ctx + k) = .threshold k := plicReg_threshold hn hctx hk
    refine ⟨by rw [plic_readByte_threshold p hreg, byteOf_eq_ofNat], _, plic_writeByte_threshold p b hreg,
      fun j hj => getLsbD_setByte _ _ _ hj⟩
  · have hreg : plicReg n ctx (0x200004 + 0x1000 * ctx + lane) = .claim lane := plicReg_claim hn hctx hl
    exact ⟨plic_readByte_claim p hreg, plic_writeByte_claim p b hreg⟩
  · have hreg : plicReg n ctx o = .none := plicReg_none hp hw he ht
    exact ⟨plic_readByte_none p hreg, plic_writeByte_none p b hreg⟩

/-- Settles O59: the best source of the fold, which is unique. -/
theorem plicClaimTakesTheHighestPriority : Obligations.PlicClaimTakesTheHighestPriority := by
  intro p n hpending hservice claimable
  have hclaimable : ∀ s, 1 ≤ s → s < n → p.claimable s = true → claimable s := fun s h1 hs h =>
    ⟨h1, hs, (claimable_iff p s).mp h⟩
  refine ⟨fun id ⟨h1, hid, hc⟩ hbest => ?_, fun hnone => ?_, fun lane h1 hl => ?_⟩
  · have hsome : p.best n = some id := best_eq_some ⟨h1, hid⟩ ((claimable_iff p id).mpr hc)
      fun s hs1 hs hcs => hbest s (hclaimable s hs1 hs hcs)
    refine ⟨setBitAt p.pending id false, setBitAt p.inService id true, ?_, bitAt_setBitAt hpending id false,
      bitAt_setBitAt hservice id true⟩
    have hlatch : byteOf (BitVec.ofNat 32 id) 0 = BitVec.ofNat 8 id := by
      apply BitVec.eq_of_toNat_eq
      rw [toNat_byteOf, BitVec.toNat_ofNat, BitVec.toNat_ofNat]
      omega
    rw [Plic.claimRead, if_pos rfl, Plic.claim, hsome]
    exact Prod.ext hlatch rfl
  · have hbest : p.best n = none := best_eq_none fun s h1 hs hc => hnone s (hclaimable s h1 hs hc)
    rw [Plic.claimRead, if_pos rfl, Plic.claim, hbest]
    rfl
  · rw [Plic.claimRead, if_neg (by omega), byteOf_eq_ofNat]

/-- Settles O60: completion by its test, the gateways and the output by the list of sources. -/
theorem plicCompletionGatewaysAndOutput : Obligations.PlicCompletionGatewaysAndOutput := by
  intro p n hpending hservice
  refine ⟨fun b h1 hb => ⟨_, if_pos ⟨rfl, isSource_iff.mpr ⟨h1, hb⟩⟩, bitAt_setBitAt hservice _ _⟩,
    fun lane b => completeWrite_of_not p, fun level => ⟨_, rfl, bitAt_gateways level hpending n⟩,
    output_iff p n⟩
end
